-- ==== Sys2Proof/Word.lean ====
section
/-! DEFINITION. The words of the block: byte, bit, timestamp and the two record widths
(spec/00_scope.md R8 and R10). -/

namespace Sys2Proof

/-- A byte: one code byte, one operand byte, one byte of the frame (R10 `u8`). -/
abbrev Byte := BitVec 8

/-- A channel item, a single bit (R8 `BIT_ITEM_WIDTH` = 1). -/
abbrev Bit := BitVec 1

/-- A timestamp: an unsigned count of microseconds (R8 `TS_WIDTH` = 64). -/
abbrev Micros := BitVec 64

/-- A 16-bit field of the published record: `u16`, or `s16` in two's complement (R10). -/
abbrev Half := BitVec 16

/-- A 32-bit word: the call counter, the interval, a word returned to the host (R8, R41). -/
abbrev Word := BitVec 32

end Sys2Proof
end

