-- ==== Sys2Proof/Config.lean ====
section
/-! DEFINITION. The named constants of spec/00_scope.md R7, R8 and R9, and the one open parameter. -/

namespace Sys2Proof

/-- The bit-timeout policy, R9: what ASM_TIMEOUT does with a missing bit. -/
inductive TimeoutPolicy where
  /-- a timeout shifts a 0 into the frame and the assembler goes on (R131) -/
  | substituteZero
  /-- a timeout ends the cycle with status INVALID (R132) -/
  | abortInvalid
  deriving DecidableEq, Repr

namespace Config

/-- `THRESHOLD_US` (R7): an interval above it is a 1. -/
def thresholdUs : Micros := 50

/-- `DEADLINE_TICKS` (R7): the ticks a bit is waited for. -/
def deadlineTicks : Nat := 500

/-- `CHAN_CAP` (R7): the bits the hand-off channel holds. -/
def chanCap : Nat := 40

/-- `FRAME_BYTES` (R7). -/
def frameBytes : Nat := 5

/-- `FRAME_BITS` (R7). -/
def frameBits : Nat := 40

/-- `START_LOW_MS` (R7): the least length of the host's start signal; a host duty, read by no rule of the block. -/
def startLowMs : Nat := 1

/-- `POLL_INTERVAL_MS` (R8): fixed when the block is built, 10000 here. -/
def pollIntervalMs : Word := 10000

/-- `TIMEOUT_POLICY` (R3, R9): this hardware takes SUBSTITUTE_ZERO (log 11). -/
def timeoutPolicy : TimeoutPolicy := .substituteZero

/-- `TICK_PERIOD` (R8, R123): OPEN in the spec, and read by no rule; no value of it can be proved (log 12). -/
opaque tickPeriod : Nat

end Config

end Sys2Proof
end

