-- ==== Sys2Proof/Syntax.lean ====
section
/-! DEFINITION. The events of the block (spec/30_encoding.md R70 to R73, opcode_table.json), their classes and
agents, and the pseudo-events of R80. An event is what an instruction is elsewhere: one atomic step. -/

namespace Sys2Proof

/-- The thirteen rows of opcode_table.json, without their operands. -/
inductive Opcode where
  | init | cycleReset | irqDisarm | irqArm | asmStart | read | readDiag
  | edgeFall | edgeRise
  | tick
  | asmRecv | asmTimeout | validate
  deriving DecidableEq, Repr

/-- One event with its operand, one constructor per row of opcode_table.json (R71). -/
inductive Instr where
  /-- INIT, with the peripheral layer's setup result `ok` (R73, R180) -/
  | init (ok : Bool)
  /-- CYCLE_RESET (R184) -/
  | cycleReset
  /-- IRQ_DISARM (R186) -/
  | irqDisarm
  /-- IRQ_ARM (R187) -/
  | irqArm
  /-- ASM_START (R121) -/
  | asmStart
  /-- READ (R160) -/
  | read
  /-- READ_DIAG (R162) -/
  | readDiag
  /-- EDGE_FALL, with the clock reading at the edge (R72, R101) -/
  | edgeFall (t : Micros)
  /-- EDGE_RISE, with the clock reading at the edge (R72, R102) -/
  | edgeRise (t : Micros)
  /-- TICK (R122) -/
  | tick
  /-- ASM_RECV (R126) -/
  | asmRecv
  /-- ASM_TIMEOUT (R130) -/
  | asmTimeout
  /-- VALIDATE (R155) -/
  | validate
  deriving DecidableEq, Repr

/-- The row of opcode_table.json an event belongs to. -/
def Instr.opcode : Instr → Opcode
  | .init _ => .init
  | .cycleReset => .cycleReset
  | .irqDisarm => .irqDisarm
  | .irqArm => .irqArm
  | .asmStart => .asmStart
  | .read => .read
  | .readDiag => .readDiag
  | .edgeFall _ => .edgeFall
  | .edgeRise _ => .edgeRise
  | .tick => .tick
  | .asmRecv => .asmRecv
  | .asmTimeout => .asmTimeout
  | .validate => .validate

/-- The event classes of R70, named by `code[7:4]`. -/
inductive EventClass where
  | host | edge | timer | internal
  deriving DecidableEq, Repr

/-- The class of each row (R70). -/
def Opcode.eventClass : Opcode → EventClass
  | .init | .cycleReset | .irqDisarm | .irqArm | .asmStart | .read | .readDiag => .host
  | .edgeFall | .edgeRise => .edge
  | .tick => .timer
  | .asmRecv | .asmTimeout | .validate => .internal

/-- The agents that take steps (R16). ENV takes no step of its own: it offers the edges CLS takes, and draws the
timestamps and each `ok`. -/
inductive Agent where
  | cls | asm | tmr | host
  deriving DecidableEq, Repr

/-- The agent whose step an event is (R16, R70). -/
def Opcode.agent (o : Opcode) : Agent :=
  match o.eventClass with
  | .host => .host
  | .edge => .cls
  | .timer => .tmr
  | .internal => .asm

/-- HOST, EDGE and TIMER codes are stimuli an agent offers; INTERNAL codes name steps ASM takes by itself (R77). -/
def Opcode.injectable (o : Opcode) : Bool :=
  o.eventClass != .internal

/-- One row of the opcode map: a code byte `c` belongs to it when `c &&& mask = pattern` (R78). -/
structure OpcodeRow where
  pattern : Byte
  mask    : Byte
  opcode  : Opcode
  deriving DecidableEq, Repr

/-- The pseudo-events of R80. -/
inductive Macro where
  /-- `tick*N` -/
  | ticks (n : Nat)
  /-- `recv*N` -/
  | recvs (n : Nat)
  /-- `pulse @T, W`: one high phase of W microseconds -/
  | pulse (start width : Nat)
  /-- `cycle`: the host sequence of R215, less the start signal, which is no event -/
  | cycle
  deriving DecidableEq, Repr

end Sys2Proof
end

