-- ==== Sys2Proof/WellFormed.lean ====
section
/-! DEFINITION. Which byte strings are records (spec/30_encoding.md R75, R76). Every term of `Instr` is well-formed
by its type (`ok` is one bit, `t` has 64 bits), so the check is on the serialised form. -/

namespace Sys2Proof

/-- The codes of one-byte records (R71, R75). -/
def plainCodes : List Byte :=
  [0x02, 0x03, 0x04, 0x05, 0x06, 0x07, 0x20, 0x30, 0x31, 0x32]

/-- The codes followed by an eight-byte timestamp (R75). -/
def edgeCodes : List Byte := [0x10, 0x11]

/-- The code byte spells an event (R76). -/
def codeDefined (c : Byte) : Bool :=
  c == 0x01 || edgeCodes.contains c || plainCodes.contains c

/-- The operand bytes have the length R75 gives for this code. -/
def operandLengthOk (c : Byte) (ops : List Byte) : Bool :=
  ops.length == (if c = 0x01 then 1 else if edgeCodes.contains c then 8 else 0)

/-- An INIT operand byte is 0x00 or 0x01; other codes put no condition on their operand bytes (R75, R76). -/
def operandValueOk (c : Byte) (ops : List Byte) : Bool :=
  c != 0x01 || ops == [0x00] || ops == [0x01]

/-- These bytes are exactly one record. -/
def recordWellFormed : List Byte → Bool
  | [] => false
  | c :: ops => codeDefined c && operandLengthOk c ops && operandValueOk c ops

end Sys2Proof
end

