-- ==== Sys2Proof/Decode.lean ====
section
/-! DEFINITION. Decoding and encoding of serialised events (spec/30_encoding.md R71 to R78). A stream is a list of
bytes; decoding answers the first event and the rest of the stream, a reserved byte, or that the stream holds no
whole record. -/

namespace Sys2Proof

/-- What the head of an event stream spells. -/
inductive Decoded where
  /-- one whole record, and the bytes after it -/
  | record (i : Instr) (rest : List Byte)
  /-- a reserved code, or a reserved INIT operand byte (R76) -/
  | reserved (b : Byte)
  /-- the stream ends before a record is complete: no event (R75) -/
  | noRecord
  deriving DecidableEq, Repr

/-- The opcode map as rows of pattern and mask over `code[7:0]` (R71, R78). -/
def opcodeTable : List OpcodeRow :=
  [⟨0x01, 0xFF, .init⟩, ⟨0x02, 0xFF, .cycleReset⟩, ⟨0x03, 0xFF, .irqDisarm⟩,
   ⟨0x04, 0xFF, .irqArm⟩, ⟨0x05, 0xFF, .asmStart⟩, ⟨0x06, 0xFF, .read⟩] ++
  [⟨0x07, 0xFF, .readDiag⟩, ⟨0x10, 0xFF, .edgeFall⟩, ⟨0x11, 0xFF, .edgeRise⟩,
   ⟨0x20, 0xFF, .tick⟩, ⟨0x30, 0xFF, .asmRecv⟩, ⟨0x31, 0xFF, .asmTimeout⟩,
   ⟨0x32, 0xFF, .validate⟩]

/-- The row a code byte matches, if any; a byte that matches none is reserved (R76, R78). -/
def opcodeOf (c : Byte) : Option Opcode :=
  (opcodeTable.find? fun r => c &&& r.mask == r.pattern).map OpcodeRow.opcode

/-- The class of a code byte from its field `code[7:4]` (R70). -/
def classOfCode (c : Byte) : Option EventClass :=
  match (c.extractLsb' 4 4).toNat with
  | 0 => some .host
  | 1 => some .edge
  | 2 => some .timer
  | 3 => some .internal
  | _ => none

/-- The timestamp of its operand bytes, most significant byte first (R75). -/
def timeOfBytes (bs : List Byte) : Micros :=
  bs.foldl (fun acc b => (acc <<< 8) ||| b.setWidth 64) 0

/-- The operand of an edge: eight bytes, or no whole record. -/
def decodeEdge (mk : Micros → Instr) (bs : List Byte) : Decoded :=
  if bs.length < 8 then .noRecord
  else .record (mk (timeOfBytes (bs.take 8))) (bs.drop 8)

/-- The operand of INIT: 0x01 is `ok = 1`, 0x00 is `ok = 0`, any other byte is reserved (R75, R76). -/
def decodeInit : List Byte → Decoded
  | [] => .noRecord
  | b :: rest =>
    if b = 0x01 then .record (.init true) rest
    else if b = 0x00 then .record (.init false) rest
    else .reserved b

/-- The operand bytes that follow a defined code (R75). -/
def decodeOperand (o : Opcode) (bs : List Byte) : Decoded :=
  match o with
  | .init => decodeInit bs
  | .cycleReset => .record .cycleReset bs
  | .irqDisarm => .record .irqDisarm bs
  | .irqArm => .record .irqArm bs
  | .asmStart => .record .asmStart bs
  | .read => .record .read bs
  | .readDiag => .record .readDiag bs
  | .edgeFall => decodeEdge .edgeFall bs
  | .edgeRise => decodeEdge .edgeRise bs
  | .tick => .record .tick bs
  | .asmRecv => .record .asmRecv bs
  | .asmTimeout => .record .asmTimeout bs
  | .validate => .record .validate bs

/-- Decode the head of an event stream. Total: every byte string is a record, reserved, or no record. -/
def decode : List Byte → Decoded
  | [] => .noRecord
  | c :: bs =>
    match opcodeOf c with
    | none => .reserved c
    | some o => decodeOperand o bs

/-- The code byte of each row (R71). -/
def opcodeByte : Opcode → Byte
  | .init => 0x01
  | .cycleReset => 0x02
  | .irqDisarm => 0x03
  | .irqArm => 0x04
  | .asmStart => 0x05
  | .read => 0x06
  | .readDiag => 0x07
  | .edgeFall => 0x10
  | .edgeRise => 0x11
  | .tick => 0x20
  | .asmRecv => 0x30
  | .asmTimeout => 0x31
  | .validate => 0x32

/-- The eight bytes of a timestamp, `t[63:56]` first (R75). -/
def timeBytes (t : Micros) : List Byte :=
  [t.extractLsb' 56 8, t.extractLsb' 48 8, t.extractLsb' 40 8, t.extractLsb' 32 8,
   t.extractLsb' 24 8, t.extractLsb' 16 8, t.extractLsb' 8 8, t.extractLsb' 0 8]

/-- The operand bytes of an event (R75). -/
def operandBytes : Instr → List Byte
  | .init ok => [if ok then 0x01 else 0x00]
  | .edgeFall t => timeBytes t
  | .edgeRise t => timeBytes t
  | .cycleReset | .irqDisarm | .irqArm | .asmStart | .read | .readDiag
  | .tick | .asmRecv | .asmTimeout | .validate => []

/-- The code of an event, `code[7:0]` (R70). -/
def codeOf (i : Instr) : Byte := opcodeByte i.opcode

/-- The serialised record of an event (R75). -/
def encode (i : Instr) : List Byte := codeOf i :: operandBytes i

/-- A trace as bytes: its records one after the other (R75). -/
def serialise (is : List Instr) : List Byte := is.flatMap encode

/-- The length of a record in bytes, told by its code byte alone (R75); a reserved byte stands alone. -/
def recordLength (c : Byte) : Nat :=
  match opcodeOf c with
  | some .init => 2
  | some .edgeFall => 9
  | some .edgeRise => 9
  | _ => 1

/-- The bytes of a word of the opcode table, its least significant byte first. -/
def wordBytes : Nat → Nat → List Byte
  | 0, _ => []
  | n + 1, w => BitVec.ofNat 8 w :: wordBytes n (w / 256)

/-- The record whose table bits are `w`: the table's bytes, its operand bytes zero, cut to the record's length. -/
def tableRecord (nbits w : Nat) : List Byte :=
  let bs := wordBytes ((nbits + 7) / 8) w
  (bs ++ List.replicate (9 - bs.length) 0).take (recordLength (bs.headD 0))

/-- The event the decoder reads from the record whose table bits are `w`. -/
def decodeTableWord (nbits w : Nat) : Option Instr :=
  match decode (tableRecord nbits w) with
  | .record i _ => some i
  | .reserved _ => none
  | .noRecord => none

end Sys2Proof
end

