-- ==== Sys2Proof/Machine/State.lean ====
section
/-! DEFINITION. The whole state of the block (spec/10_state.md R20), its two outputs (R13, R38), the event stream
that orders its agents (log 1), the reasons a step can stop, and power-on reset (R44, R230). -/

namespace Sys2Proof.Machine

/-- The lifecycle of the block (R22). -/
inductive Life where
  /-- setup has not run -/
  | uninit
  /-- setup succeeded -/
  | running
  /-- setup failed -/
  | failed
  deriving DecidableEq, Repr

/-- The assembler's sequencer state (R29). -/
inductive Phase where
  /-- no cycle is receiving -/
  | idle
  /-- waiting for the bit at index `bitIndex` -/
  | receiving
  /-- all 40 bits are accounted for, validation has not run -/
  | validating
  deriving DecidableEq, Repr

/-- The status tag of the record (R35). Its fourth code, 3, is reserved and never written: it has no name (log 10). -/
inductive Status where
  | invalid
  | valid
  | checksumMismatch
  deriving DecidableEq, Repr

/-- The RawFrame, `frame[0]` to `frame[4]` (R31). -/
structure Frame where
  b0 : Byte
  b1 : Byte
  b2 : Byte
  b3 : Byte
  b4 : Byte
  deriving DecidableEq, Repr

/-- The fault record of R200: the kind, the code of the event that raised it, and for an overlap the sequencer. -/
inductive FaultRecord where
  /-- a cycle command while setup has not succeeded: CYCLE_RESET, IRQ_DISARM, IRQ_ARM, ASM_START -/
  | notRunning (code : Byte)
  /-- a cycle command while a cycle is receiving or validating: CYCLE_RESET, ASM_START -/
  | cycleOverlap (code : Byte) (phase : Phase) (bitIndex : Nat)
  /-- INIT after setup has succeeded -/
  | doubleInit (code : Byte)
  deriving DecidableEq, Repr

/-- The kinds of diagnostic record (R38). -/
inductive DiagKind where
  | timeout
  deriving DecidableEq, Repr

/-- One record of the diagnostic output stream, `Diag(TIMEOUT, bit_index)` (R38). -/
structure Diag where
  kind  : DiagKind
  index : Nat
  deriving DecidableEq, Repr

/-- What a read command returns to the host (R74). -/
inductive Reply where
  /-- READ: the words W0, W1, W2 -/
  | record (w0 w1 w2 : Word)
  /-- READ_DIAG: the word D0 -/
  | diag (d0 : Word)
  deriving DecidableEq, Repr

/-- The state: the sixteen fields of R20, then the outputs and the event stream. -/
structure State where
  /-- R22 -/
  life : Life
  /-- R23: the edge-interrupt enable -/
  armed : Bool
  /-- R24: the next rising edge is the acknowledgement -/
  awaitAck : Bool
  /-- R25: a rising edge has been recorded since the cycle reset -/
  timing : Bool
  /-- R26 -/
  lastRise : Micros
  /-- R27: the diagnostic call counter -/
  calls : Word
  /-- R28: the hand-off channel, head first -/
  chan : List Bit
  /-- R29 -/
  phase : Phase
  /-- R30: the bits accounted for, 0 to 40 (log 9) -/
  bitIndex : Nat
  /-- R31 -/
  frame : Frame
  /-- R32: the ticks counted for the current bit, 0 to 500 (log 9) -/
  waitTicks : Nat
  /-- R33: s16, tenths of a degree -/
  rdTemp : Half
  /-- R34: u16, tenths of a percent -/
  rdHum : Half
  /-- R35 -/
  rdStatus : Status
  /-- R36: milliseconds -/
  rdInterval : Word
  /-- R39: the sticky fault record -/
  fault : Option FaultRecord
  /-- R38: the diagnostic output stream, oldest record first; read by no rule (log 8) -/
  diag : List Diag
  /-- R13, R74: the value the last read command returned; read by no rule (log 7) -/
  reply : Option Reply
  /-- the model's own: the serialised events still to come, in the order the agents take their steps (log 1) -/
  events : List Byte
  deriving DecidableEq, Repr

/-- Why a step stops although the model gives its event a meaning. -/
inductive Fault where
  /-- Raised by step and by every meaning when a fault is recorded: "no event has a step afterwards" (R39, R200).
  Safe: the block takes no step either. -/
  | quiescent (r : FaultRecord)
  /-- Raised by ASM_RECV, ASM_TIMEOUT and VALIDATE where their enabling condition is false: the event "has no step
  in that state" (R14, R77), and a trace that lists it there is no run of the block. Safe. -/
  | notEnabled (code : Byte)
  deriving DecidableEq, Repr

/-- Why a step has no meaning. -/
inductive Refusal where
  /-- Raised by exec for an event that has no meaning yet; no event is left so. Safe. -/
  | notModelled (mnemonic : String)
  /-- Raised by step for a reserved code or a reserved INIT operand byte (R76, R203 `ReservedCode`). Safe. -/
  | reservedCode (b : Byte)
  /-- Raised by EDGE_FALL with `timing` set and a timestamp before `last_rise` (R104, R203). Safe. -/
  | nonMonotonicClock
  deriving DecidableEq, Repr

/-- The frame of five zero bytes. -/
def Frame.zero : Frame := ⟨0, 0, 0, 0, 0⟩

/-- Power-on reset: the reset column of R20, repeated in R230. The outputs and the event stream are empty
(logs 3, 7 and 8). -/
def State.reset : State where
  life := .uninit
  armed := false
  awaitAck := true
  timing := false
  lastRise := 0
  calls := 0
  chan := []
  phase := .idle
  bitIndex := 0
  frame := Frame.zero
  waitTicks := 0
  rdTemp := 0
  rdHum := 0
  rdStatus := .invalid
  rdInterval := Config.pollIntervalMs
  fault := none
  diag := []
  reply := none
  events := []

end Sys2Proof.Machine
end

