-- ==== Sys2Proof/Machine/Operands.lean ====
section
/-! DEFINITION. The operand forms of the events and the words they return: the elapsed time of an edge (R100), the
place of a bit in the frame (R30), the packing of a reply (R74). -/

namespace Sys2Proof.Machine

/-- The 2-bit code of a status (R35). -/
def statusCode : Status → BitVec 2
  | .invalid => 0
  | .valid => 1
  | .checksumMismatch => 2

/-- The timed interval of an edge at `t`: `e = t - last_rise` (R100). -/
def elapsed (t : Micros) (s : State) : Micros := t - s.lastRise

/-- The frame byte that bit `k` of the cycle belongs to: `k div 8` (R30). -/
def byteIndex (k : Nat) : Nat := k / 8

/-- The number of bits of that byte already filled: `k mod 8` (R30). -/
def bitInByte (k : Nat) : Nat := k % 8

/-- Byte `i` of a frame, `frame[i]` for `i` from 0 to 4 (R11); no other byte exists, and it reads 0 (log 9). -/
def frameByte (f : Frame) (i : Nat) : Byte :=
  match i with
  | 0 => f.b0
  | 1 => f.b1
  | 2 => f.b2
  | 3 => f.b3
  | 4 => f.b4
  | _ => 0

/-- The frame with byte `i` written; there is no byte beyond 4 to write (log 9). -/
def setFrameByte (f : Frame) (i : Nat) (b : Byte) : Frame :=
  match i with
  | 0 => { f with b0 := b }
  | 1 => { f with b1 := b }
  | 2 => { f with b2 := b }
  | 3 => { f with b3 := b }
  | 4 => { f with b4 := b }
  | _ => f

/-- W0 (R74): `zext_32(rd_hum) << 16 | (rd_temp as u16)`. -/
def replyW0 (s : State) : Word := (s.rdHum.setWidth 32 <<< 16) ||| s.rdTemp.setWidth 32

/-- W1 (R74): `zext_32(rd_status)`. -/
def replyW1 (s : State) : Word := (statusCode s.rdStatus).setWidth 32

/-- W2 (R74): `rd_interval`. -/
def replyW2 (s : State) : Word := s.rdInterval

/-- D0 (R74): `calls`. -/
def replyD0 (s : State) : Word := s.calls

end Sys2Proof.Machine
end

