-- ==== Sys2Proof/Machine/Flags.lean ====
section
/-! DEFINITION. The conditions and values the block computes: the threshold (R100), the checksum (R151), the two
conversions (R153, R154), and the enabling conditions of the assembler's own steps (R126, R130, R155). -/

namespace Sys2Proof.Machine

/-- Classify (R100): 1 when the interval exceeds 50 microseconds, strictly; 0 otherwise. -/
def classify (e : Micros) : Bit := if Config.thresholdUs < e then 1 else 0

/-- The duty of R104 is broken: a falling edge is timed, and its timestamp lies before the recorded rise. -/
def clockWentBack (t : Micros) (s : State) : Bool := s.timing && decide (t < s.lastRise)

/-- The channel is full (R105). -/
def chanFull (s : State) : Bool := !decide (s.chan.length < Config.chanCap)

/-- ChecksumOK (R151): byte 4 is the low byte of the sum, over naturals, of bytes 0 to 3. -/
def checksumOk (f : Frame) : Bool :=
  f.b4.toNat == (f.b0.toNat + f.b1.toNat + f.b2.toNat + f.b3.toNat) % 2 ^ 8

/-- HumTenths (R153). -/
def humTenths (f : Frame) : Half := (f.b0.setWidth 16 <<< 8) ||| f.b1.setWidth 16

/-- TempMag (R154): the 15-bit magnitude. -/
def tempMag (f : Frame) : Half := ((f.b2 &&& 0x7F).setWidth 16 <<< 8) ||| f.b3.setWidth 16

/-- TempTenths (R154): the magnitude, negated when the sign bit is set. -/
def tempTenths (f : Frame) : Half := if f.b2.getLsbD 7 then -tempMag f else tempMag f

/-- ASM_RECV is enabled, its fault condition apart (R126). -/
def recvReady (s : State) : Bool := s.phase == .receiving && !s.chan.isEmpty

/-- ASM_TIMEOUT is enabled, its fault condition apart (R130). -/
def timeoutReady (s : State) : Bool :=
  s.phase == .receiving && s.chan.isEmpty && s.waitTicks == Config.deadlineTicks

/-- VALIDATE is enabled, its fault condition apart (R155). -/
def validateReady (s : State) : Bool := s.phase == .validating

end Sys2Proof.Machine
end

