-- ==== Sys2Proof/Machine/Ops.lean ====
section
/-! DEFINITION. The named operations on the state: the channel primitives of R12, ShiftIn (R124), the groups of
fields the rules write together, the outputs, and the one operation that takes a fault (R13, R200). The block has
no return from a fault: it is never cleared (R39, R204). -/

namespace Sys2Proof.Machine

/-- What a meaning answers. -/
abbrev Result := Host.Outcome State Fault Refusal

/-! ### Updates of the state -/

/-- The event stream after a record has been taken from it. -/
def State.setEvents (s : State) (bs : List Byte) : State := { s with events := bs }

/-- `S.life <- l` (R22). -/
def State.setLife (s : State) (l : Life) : State := { s with life := l }

/-- `S.armed <- b` (R23). -/
def State.setArmed (s : State) (b : Bool) : State := { s with armed := b }

/-- `S.phase <- p` (R29). -/
def State.setPhase (s : State) (p : Phase) : State := { s with phase := p }

/-- `S.calls <- (S.calls + 1) mod 2^32` (R27, R108). -/
def State.countCall (s : State) : State := { s with calls := s.calls + 1 }

/-- ChanPush (R12). -/
def State.chanPush (s : State) (b : Bit) : State := { s with chan := s.chan ++ [b] }

/-- ChanPop (R12), the channel it leaves; the bit it returns is the head. -/
def State.chanPop (s : State) : State := { s with chan := s.chan.tail }

/-- ChanFlush (R12). -/
def State.chanFlush (s : State) : State := { s with chan := [] }

/-- The acknowledgement pulse is ignored: `S.await_ack <- false` (R102). -/
def State.takeAck (s : State) : State := { s with awaitAck := false }

/-- A rising edge is recorded: `S.last_rise <- t`, `S.timing <- true` (R102). -/
def State.recordRise (s : State) (t : Micros) : State := { s with lastRise := t, timing := true }

/-- DecoderState at its reset values (R184, R231). -/
def State.resetDecoder (s : State) : State :=
  { s with awaitAck := true, timing := false, lastRise := 0, calls := 0 }

/-- The accumulator's counters and frame at 0 (R121, R184). -/
def State.clearAccumulator (s : State) : State :=
  { s with bitIndex := 0, frame := Frame.zero, waitTicks := 0 }

/-- One more tick, saturating at `DEADLINE_TICKS` (R122). -/
def State.countTick (s : State) : State :=
  { s with waitTicks := min (s.waitTicks + 1) Config.deadlineTicks }

/-- `S.wait_ticks <- 0` (R132). -/
def State.clearTicks (s : State) : State := { s with waitTicks := 0 }

/-- `S.rd_status <- st` (R35). -/
def State.setStatus (s : State) (st : Status) : State := { s with rdStatus := st }

/-- A whole reading is published: humidity, temperature and VALID together (R37, R156). -/
def State.publish (s : State) (hum temp : Half) : State :=
  { s with rdHum := hum, rdTemp := temp, rdStatus := .valid }

/-- `emit Diag(info)` (R13, R38). -/
def State.emitDiag (s : State) (d : Diag) : State := { s with diag := s.diag ++ [d] }

/-- `return v` (R13). -/
def State.answer (s : State) (r : Reply) : State := { s with reply := some r }

/-- The fault record is written, and nothing else is (R13, R200). -/
def State.recordFault (s : State) (r : FaultRecord) : State := { s with fault := some r }

/-- Byte `byteIndex k` of the frame, shifted left by one with `b` at the bottom (R124): MSB first. -/
def shiftFrame (f : Frame) (k : Nat) (b : Bit) : Frame :=
  setFrameByte f (byteIndex k) ((frameByte f (byteIndex k) <<< 1) ||| b.setWidth 8)

/-- The phase once `k` bits are accounted for: the 40th ends reception (R124). -/
def phaseAfter (k : Nat) (p : Phase) : Phase := if k = Config.frameBits then .validating else p

/-- ShiftIn (R124): the bit goes into the frame, the index advances, the deadline starts afresh, and the 40th bit
ends reception. -/
def State.shiftIn (s : State) (b : Bit) : State :=
  { s with
    frame := shiftFrame s.frame s.bitIndex b
    bitIndex := s.bitIndex + 1
    waitTicks := 0
    phase := phaseAfter (s.bitIndex + 1) s.phase }

/-! ### Faults and guards -/

/-- Take a fault, the ONE operation for it: a step into the fault state, in which the kind, the event's code (and
for an overlap the sequencer) are recorded and no other field is written (R13, R14, R200; log 4). -/
def raiseFault (r : FaultRecord) (s : State) : Result := .next (s.recordFault r)

/-- Every event is enabled only while no fault is recorded (R14, R39). -/
def whenLive (s : State) (k : Result) : Result :=
  match s.fault with
  | some r => .fault (.quiescent r)
  | none => k

/-- The check `if S.life != RUNNING: raise Fault(NotRunning)` of the cycle commands. -/
def whenRunning (code : Byte) (s : State) (k : Result) : Result :=
  if s.life = .running then k else raiseFault (.notRunning code) s

/-- The check `if S.phase != IDLE: raise Fault(CycleOverlap)` of the cycle commands. -/
def whenIdle (code : Byte) (s : State) (k : Result) : Result :=
  if s.phase = .idle then k else raiseFault (.cycleOverlap code s.phase s.bitIndex) s

/-- An internal step runs where its enabling condition holds and has no step elsewhere (R14, R77; log 5). -/
def whenEnabled (code : Byte) (ready : Bool) (k : Result) : Result :=
  if ready then k else .fault (.notEnabled code)

/-! ### Operations of the classifier, the assembler and the validator -/

/-- A classified bit is pushed, or dropped when the channel is full (R101, R105). -/
def offerBit (b : Bit) (s : State) : State := if chanFull s then s else s.chanPush b

/-- A delivered falling edge classifies one bit when a rise has been recorded, and none otherwise (R101, R106). -/
def classifyEdge (t : Micros) (s : State) : State :=
  if s.timing then offerBit (classify (elapsed t s)) s else s

/-- A delivered rising edge: the acknowledgement is ignored, any later rise is recorded (R102). -/
def acceptRise (t : Micros) (s : State) : State :=
  if s.awaitAck then s.takeAck else s.recordRise t

/-- The head of the channel is popped and shifted in (R126); with an empty channel there is nothing to pop, and
ASM_RECV is not enabled. -/
def receiveBit (s : State) : State :=
  match s.chan with
  | [] => s
  | b :: _ => s.chanPop.shiftIn b

/-- What a timeout does under each policy (R130): the diagnostic, then the substituted 0 (R131) or the abort
(R132). -/
def timeoutUnder (p : TimeoutPolicy) (s : State) : State :=
  let d := s.emitDiag ⟨.timeout, s.bitIndex⟩
  match p with
  | .substituteZero => d.shiftIn 0
  | .abortInvalid => ((d.setStatus .invalid).setPhase .idle).clearTicks

/-- The record after validation of the frame (R155 to R157). -/
def publishFrame (s : State) : State :=
  if checksumOk s.frame then s.publish (humTenths s.frame) (tempTenths s.frame)
  else s.setStatus .checksumMismatch

end Sys2Proof.Machine
end

