-- ==== Sys2Proof/Machine/Accumulator.lean ====
section
/-! DEFINITION. The bit-to-byte accumulator of spec/41_accumulator.md: ASM_START, TICK, ASM_RECV, ASM_TIMEOUT. -/

namespace Sys2Proof.Machine

/-- ASM_START (R121). -/
def execAsmStart (s : State) : Result :=
  whenLive s <| whenRunning (opcodeByte .asmStart) s <| whenIdle (opcodeByte .asmStart) s <|
    .next (s.setPhase .receiving).clearAccumulator

/-- TICK (R122). -/
def execTick (s : State) : Result :=
  whenLive s <| .next (if s.phase = .receiving then s.countTick else s)

/-- ASM_RECV (R126). -/
def execAsmRecv (s : State) : Result :=
  whenLive s <| whenEnabled (opcodeByte .asmRecv) (recvReady s) <| .next (receiveBit s)

/-- ASM_TIMEOUT (R130), under the policy of this hardware. -/
def execAsmTimeout (s : State) : Result :=
  whenLive s <| whenEnabled (opcodeByte .asmTimeout) (timeoutReady s) <|
    .next (timeoutUnder Config.timeoutPolicy s)

end Sys2Proof.Machine
end

