-- ==== Sys2Proof/Machine/Classifier.lean ====
section
/-! DEFINITION. The pulse-width classifier of spec/40_classifier.md: EDGE_FALL and EDGE_RISE. Delivering an edge is
the block's only interrupt entry; it saves nothing and returns at the end of its step (R209, R210). -/

namespace Sys2Proof.Machine

/-- EDGE_FALL (R101, R103 to R106). -/
def execEdgeFall (t : Micros) (s : State) : Result :=
  whenLive s <|
    if !s.armed then .next s
    else if clockWentBack t s then .refused .nonMonotonicClock
    else .next (classifyEdge t s.countCall)

/-- EDGE_RISE (R102, R103). -/
def execEdgeRise (t : Micros) (s : State) : Result :=
  whenLive s <|
    if !s.armed then .next s
    else .next (acceptRise t s.countCall)

end Sys2Proof.Machine
end

