-- ==== Sys2Proof/Machine/Control.lean ====
section
/-! DEFINITION. The control commands of spec/43_control.md: INIT, CYCLE_RESET, IRQ_DISARM, IRQ_ARM. -/

namespace Sys2Proof.Machine

/-- INIT (R180 to R183). -/
def execInit (ok : Bool) (s : State) : Result :=
  whenLive s <|
    if s.life = .running then raiseFault (.doubleInit (opcodeByte .init)) s
    else if ok then .next ((s.setLife .running).setArmed true).chanFlush
    else .next ((s.setLife .failed).setArmed false)

/-- CYCLE_RESET (R184, R231). -/
def execCycleReset (s : State) : Result :=
  whenLive s <| whenRunning (opcodeByte .cycleReset) s <| whenIdle (opcodeByte .cycleReset) s <|
    .next s.resetDecoder.chanFlush.clearAccumulator

/-- IRQ_DISARM (R186). -/
def execIrqDisarm (s : State) : Result :=
  whenLive s <| whenRunning (opcodeByte .irqDisarm) s <| .next (s.setArmed false)

/-- IRQ_ARM (R187). -/
def execIrqArm (s : State) : Result :=
  whenLive s <| whenRunning (opcodeByte .irqArm) s <| .next (s.setArmed true)

end Sys2Proof.Machine
end

