-- ==== Sys2Proof/Machine/Validator.lean ====
section
/-! DEFINITION. The validator, converter and read commands of spec/42_validator.md: VALIDATE, READ, READ_DIAG. -/

namespace Sys2Proof.Machine

/-- VALIDATE (R155). -/
def execValidate (s : State) : Result :=
  whenLive s <| whenEnabled (opcodeByte .validate) (validateReady s) <|
    .next ((publishFrame s).setPhase .idle)

/-- READ (R160, R161): it writes no field of the block, and answers the three words. -/
def execRead (s : State) : Result :=
  whenLive s <| .next (s.answer (.record (replyW0 s) (replyW1 s) (replyW2 s)))

/-- READ_DIAG (R162): it writes no field of the block, and answers the call counter. -/
def execReadDiag (s : State) : Result :=
  whenLive s <| .next (s.answer (.diag (replyD0 s)))

end Sys2Proof.Machine
end

