-- ==== Sys2Proof/Machine/Dispatch.lean ====
section
/-! DEFINITION. exec: one arm per event, each a direct call of its meaning. -/

namespace Sys2Proof.Machine

def exec (i : Instr) (s : State) : Host.Outcome State Fault Refusal :=
  match i with
  | .init ok => Sys2Proof.Machine.execInit ok s
  | .cycleReset => Sys2Proof.Machine.execCycleReset s
  | .irqDisarm => Sys2Proof.Machine.execIrqDisarm s
  | .irqArm => Sys2Proof.Machine.execIrqArm s
  | .asmStart => Sys2Proof.Machine.execAsmStart s
  | .read => Sys2Proof.Machine.execRead s
  | .readDiag => Sys2Proof.Machine.execReadDiag s
  | .edgeFall t => Sys2Proof.Machine.execEdgeFall t s
  | .edgeRise t => Sys2Proof.Machine.execEdgeRise t s
  | .tick => Sys2Proof.Machine.execTick s
  | .asmRecv => Sys2Proof.Machine.execAsmRecv s
  | .asmTimeout => Sys2Proof.Machine.execAsmTimeout s
  | .validate => Sys2Proof.Machine.execValidate s

end Sys2Proof.Machine
end

