-- ==== Sys2Proof/Machine/Fetch.lean ====
section
/-! DEFINITION. Which event comes next: the head record of the event stream (log 1), or, where the stream holds no
whole record, the assembler's own enabled step (R77; log 2). -/

namespace Sys2Proof.Machine

/-- The next event of the stream. -/
def fetch (s : State) : Decoded := decode s.events

/-- The step ASM takes by itself in this state, if one is enabled (R77, R126, R130, R155). At most one is. -/
def asmOwnStep (s : State) : Option Instr :=
  if recvReady s then some .asmRecv
  else if timeoutReady s then some .asmTimeout
  else if validateReady s then some .validate
  else none

/-- The record whose table bits are `w`, placed at the head of the event stream (log 3). -/
def placeRecord (s : State) (nbits w : Nat) : State :=
  s.setEvents (tableRecord nbits w ++ s.events)

end Sys2Proof.Machine
end

