-- ==== Sys2Proof/Machine/Step.lean ====
section
/-! DEFINITION. One step of the block: the next event of the stream runs, once; with no event offered, the
assembler takes its own enabled step, or nothing happens (logs 1 and 2). A recorded fault is quiescent (R200). -/

namespace Sys2Proof.Machine

/-- One step. -/
def step (s : State) : Host.Outcome State Fault Refusal :=
  match s.fault with
  | some r => .fault (.quiescent r)
  | none =>
    match fetch s with
    | .record i rest => exec i (s.setEvents rest)
    | .reserved b => .refused (.reservedCode b)
    | .noRecord =>
      match asmOwnStep s with
      | some i => exec i s
      | none => .next s

/-- The state with the event whose table bits are `w` as its next event. -/
def State.withFetchWord (s : State) (nbits w : Nat) : State := placeRecord s nbits w

end Sys2Proof.Machine
end

