-- ==== Sys2Proof/Machine/Trace.lean ====
section
/-! DEFINITION. Traces: lists of events taken one after the other (R58, R77), and the expansion of the
pseudo-events of R80. -/

namespace Sys2Proof.Machine

/-- The events of a trace in order, stopping at the first that does not step: a trace with such an event "is not a
run of the block" (R77). -/
def runTrace : List Instr → State → Result
  | [], s => .next s
  | i :: is, s =>
    match exec i s with
    | .next s' => runTrace is s'
    | .fault r => .fault r
    | .refused r => .refused r

/-- The frame bits an event accounts for where it goes on (R30): the channel's head on ASM_RECV (R126), the
substituted 0 on ASM_TIMEOUT under this hardware's policy (R131), none on any other event. -/
def accountedBit (i : Instr) (s : State) : List Bit :=
  match i with
  | .asmRecv => s.chan.take 1
  | .asmTimeout => [0]
  | .init _ | .cycleReset | .irqDisarm | .irqArm | .asmStart | .read | .readDiag
  | .edgeFall _ | .edgeRise _ | .tick | .validate => []

/-- The frame bits a trace accounts for, in order: received and substituted ones alike. -/
def accountedBits : List Instr → State → List Bit
  | [], _ => []
  | i :: is, s =>
    match exec i s with
    | .next s' => accountedBit i s ++ accountedBits is s'
    | .fault _ | .refused _ => []

/-- The expansion of a pseudo-event (R80); a pulse whose fall lies beyond the 64-bit clock has none (log 13). -/
def expandMacro : Macro → Option (List Instr)
  | .ticks n => some (List.replicate n .tick)
  | .recvs n => some (List.replicate n .asmRecv)
  | .pulse t w =>
    if t + w < 2 ^ 64 then some [.edgeRise (BitVec.ofNat 64 t), .edgeFall (BitVec.ofNat 64 (t + w))]
    else none
  | .cycle => some [.irqDisarm, .cycleReset, .irqArm, .asmStart]

/-- The edges of the bits of a reply: for each, the rise and the fall that ends its timed interval (R109). -/
def bitEdges (bits : List (Micros × Micros)) : List Instr :=
  bits.flatMap fun p => [.edgeRise p.1, .edgeFall p.2]

/-- The delivered edges of a reply, in the order R109 gives: the response fall, the acknowledgement rise, the fall
that starts the first bit, the bits, and the final rise. -/
def replyEdges (t₁ t₂ t₃ : Micros) (bits : List (Micros × Micros)) (t₄ : Micros) : List Instr :=
  [.edgeFall t₁, .edgeRise t₂, .edgeFall t₃] ++ bitEdges bits ++ [.edgeRise t₄]

end Sys2Proof.Machine
end

