-- ==== Sys2Proof/Machine/TraceText.lean ====
section
/-! DEFINITION. The trace syntax of spec/30_encoding.md R79 and R80: printing an event, and reading a line (an
event, a pseudo-event, a comment or nothing). Text is a list of characters. The rules leave the white space and
leading zeros to the reader: see log 13. -/

namespace Sys2Proof.Machine

/-- A decimal digit as a character. -/
def digitChar (d : Nat) : Char := Char.ofNat (48 + d)

/-- The value of a decimal digit. -/
def digitValue (c : Char) : Option Nat :=
  if 48 ≤ c.toNat ∧ c.toNat ≤ 57 then some (c.toNat - 48) else none

/-- The decimal digits of `n`, at most `fuel` of them. -/
def decimalDigits : Nat → Nat → List Char
  | 0, _ => []
  | fuel + 1, n =>
    if n < 10 then [digitChar n] else decimalDigits fuel (n / 10) ++ [digitChar (n % 10)]

/-- The number that digits spell after those already read. -/
def readDigits : Nat → List Char → Option Nat
  | acc, [] => some acc
  | acc, c :: cs =>
    match digitValue c with
    | some d => readDigits (10 * acc + d) cs
    | none => none

/-- A decimal number: at least one digit, and digits only. -/
def readDecimal (cs : List Char) : Option Nat := if cs.isEmpty then none else readDigits 0 cs

/-- `@<t>`, with `t` a number below 2^64 (R72, R79). -/
def readTimestamp : List Char → Option Micros
  | '@' :: cs =>
    match readDecimal cs with
    | some n => if n < 2 ^ 64 then some (BitVec.ofNat 64 n) else none
    | none => none
  | _ => none

/-- The timestamp as it is printed: `@` and the decimal count of microseconds (R79). -/
def showTimestamp (t : Micros) : List Char := '@' :: decimalDigits 20 t.toNat

/-- The name of an event in the trace syntax (R79); INIT and the edges have a second word. -/
def eventName : Opcode → List Char
  | .init => "init".toList
  | .cycleReset => "reset".toList
  | .irqDisarm => "disarm".toList
  | .irqArm => "arm".toList
  | .asmStart => "asm_start".toList
  | .read => "read".toList
  | .readDiag => "read_diag".toList
  | .edgeFall => "fall".toList
  | .edgeRise => "rise".toList
  | .tick => "tick".toList
  | .asmRecv => "recv".toList
  | .asmTimeout => "timeout".toList
  | .validate => "validate".toList

/-- The words of an event (R79). -/
def eventWords (i : Instr) : List (List Char) :=
  match i with
  | .init true => [eventName .init, "ok".toList]
  | .init false => [eventName .init, "fail".toList]
  | .edgeFall t => [eventName .edgeFall, showTimestamp t]
  | .edgeRise t => [eventName .edgeRise, showTimestamp t]
  | _ => [eventName i.opcode]

/-- The events of one word. -/
def plainEvents : List (List Char × Instr) :=
  [(eventName .cycleReset, .cycleReset), (eventName .irqDisarm, .irqDisarm), (eventName .irqArm, .irqArm),
   (eventName .asmStart, .asmStart), (eventName .read, .read), (eventName .readDiag, .readDiag)] ++
  [(eventName .tick, .tick), (eventName .asmRecv, .asmRecv), (eventName .asmTimeout, .asmTimeout),
   (eventName .validate, .validate)]

/-- An event from its words (R79). -/
def readEvent : List (List Char) → Option Instr
  | [w] => plainEvents.lookup w
  | [w, a] =>
    if w = eventName .init then
      if a = "ok".toList then some (.init true)
      else if a = "fail".toList then some (.init false)
      else none
    else if w = eventName .edgeFall then (readTimestamp a).map .edgeFall
    else if w = eventName .edgeRise then (readTimestamp a).map .edgeRise
    else none
  | _ => none

/-- The pieces of a text between the separators. -/
def splitAt (sep : Char) : List Char → List (List Char)
  | [] => [[]]
  | c :: cs =>
    match splitAt sep cs with
    | [] => [[c]]
    | w :: ws => if c = sep then [] :: w :: ws else (c :: w) :: ws

/-- The pseudo-event `name*N` (R80). -/
def readRepeat (w : List Char) : Option Macro :=
  match splitAt '*' w with
  | [name, count] =>
    match readDecimal count with
    | some n =>
      if name = eventName .tick then some (.ticks n)
      else if name = eventName .asmRecv then some (.recvs n)
      else none
    | none => none
  | _ => none

/-- The start of a pulse as it stands in `pulse @T, W`: `@T,` (R80). -/
def readPulseStart : List Char → Option Nat
  | '@' :: cs =>
    match splitAt ',' cs with
    | [digits, []] => readDecimal digits
    | _ => none
  | _ => none

/-- A pseudo-event from its words (R80). -/
def readMacro : List (List Char) → Option Macro
  | [w] => if w = "cycle".toList then some .cycle else readRepeat w
  | [w, a, b] =>
    if w = "pulse".toList then
      match readPulseStart a, readDecimal b with
      | some t, some n => some (.pulse t n)
      | _, _ => none
    else none
  | _ => none

/-- The words of a line: its comment left out, split at spaces (R79). -/
def lineWords (cs : List Char) : List (List Char) :=
  (splitAt ' ' (cs.takeWhile fun c => c != ';')).filter fun w => !w.isEmpty

/-- The events a line stands for: none, one event, or the expansion of a pseudo-event (R79, R80). -/
def readLine (cs : List Char) : Option (List Instr) :=
  let ws := lineWords cs
  if ws.isEmpty then some []
  else
    match readEvent ws with
    | some i => some [i]
    | none => (readMacro ws).bind expandMacro

/-- An event as one line (R79). -/
def showEvent (i : Instr) : List Char := [' '].intercalate (eventWords i)

end Sys2Proof.Machine
end

