-- ==== Sys2Proof/Safety.lean ====
section
/-! DEFINITION. What counts as a safe run: the invariants of R43, the duties of the host and of the environment
(R189, R215, R216), the enabling conditions (R14), and the end of a cycle (R219). -/

namespace Sys2Proof.Safety

open Sys2Proof.Machine

/-- The invariants of R43. The one on `rd_status` is kept by its type: no status has code 3. -/
abbrev Invariants (s : State) : Prop :=
  s.chan.length ≤ Config.chanCap ∧
  s.bitIndex ≤ Config.frameBits ∧
  (s.phase = .receiving → s.bitIndex < Config.frameBits) ∧
  (s.phase = .validating → s.bitIndex = Config.frameBits) ∧
  s.waitTicks ≤ Config.deadlineTicks ∧
  (s.awaitAck = true → s.timing = false) ∧
  (s.life ≠ .running → s.phase = .idle ∧ s.armed = false)

/-- The event is enabled (R14): no fault is recorded, and an internal step's own condition holds. -/
def enabled (i : Instr) (s : State) : Bool :=
  s.fault.isNone &&
  match i with
  | .asmRecv => recvReady s
  | .asmTimeout => timeoutReady s
  | .validate => validateReady s
  | .init _ | .cycleReset | .irqDisarm | .irqArm | .asmStart | .read | .readDiag
  | .edgeFall _ | .edgeRise _ | .tick => true

/-- The command is admitted (the table of R189); an event of another agent always is. -/
def admitted (i : Instr) (s : State) : Bool :=
  match i with
  | .init _ => s.life != .running
  | .cycleReset | .asmStart => s.life == .running && s.phase == .idle
  | .irqDisarm | .irqArm => s.life == .running
  | .read | .readDiag | .edgeFall _ | .edgeRise _ | .tick | .asmRecv | .asmTimeout | .validate => true

/-- The environment's clock duty where the block observes it (R104, R216): a delivered falling edge that is timed
does not lie before the recorded rise. -/
def clockDuty (i : Instr) (s : State) : Bool :=
  match i with
  | .edgeFall t => !s.armed || !clockWentBack t s
  | .init _ | .cycleReset | .irqDisarm | .irqArm | .asmStart | .read | .readDiag
  | .edgeRise _ | .tick | .asmRecv | .asmTimeout | .validate => true

/-- The event takes the block out of a cycle: `phase` was not IDLE and is now (R219). -/
def endsCycle (s s' : State) : Prop := s.phase ≠ .idle ∧ s'.phase = .idle

/-- Two states that agree on all the block's fields but the call counter and the outputs: what R27 and R38 say no
decode rule reads. -/
def sameButObservation (s t : State) : Prop :=
  ({ s with calls := t.calls, diag := t.diag, reply := t.reply, events := t.events } : State) = t

/-- Two outcomes agree: both go on, in states related by `R`, or both stop for the same reason. -/
def outcomesAgree (R : State → State → Prop) : Result → Result → Prop
  | .next s, .next t => R s t
  | .fault r, .fault q => r = q
  | .refused r, .refused q => r = q
  | .next _, .fault _ | .next _, .refused _ | .fault _, .next _ => False
  | .fault _, .refused _ | .refused _, .next _ | .refused _, .fault _ => False

/-- The outcome with its state, if it has one, changed by `f`. -/
def mapNext (f : State → State) : Result → Result
  | .next s => .next (f s)
  | .fault r => .fault r
  | .refused r => .refused r

end Sys2Proof.Safety
end

