-- ==== Sys2Proof/Certificates/Slice0/Obligations.lean ====
section
/-! DEFINITION. The statements for the provers, from the numbered rules of spec/. An equation whose right side is
`{ s with … }` states the result and the frame together: every field not named is unchanged. -/

open Sys2Proof Sys2Proof.Machine Sys2Proof.Safety

/-! ### Reset and encoding -/

/-- R230: every field of the block at power-on. -/
def Obligations.PowerOnResetValues : Prop :=
  State.reset.life = .uninit ∧ State.reset.armed = false ∧ State.reset.awaitAck = true ∧
  State.reset.timing = false ∧ State.reset.lastRise = 0 ∧ State.reset.calls = 0 ∧ State.reset.chan = [] ∧
  State.reset.phase = .idle ∧ State.reset.bitIndex = 0 ∧ State.reset.frame = ⟨0, 0, 0, 0, 0⟩ ∧
  State.reset.waitTicks = 0 ∧ State.reset.rdTemp = 0 ∧ State.reset.rdHum = 0 ∧
  statusCode State.reset.rdStatus = 0 ∧ State.reset.rdInterval = 10000 ∧ State.reset.fault = none

/-- R71, R75, and the vectors V1 to V8: some records, written out. -/
def Obligations.WrittenRecordsDecode : Prop :=
  decode [0x01, 0x01] = .record (.init true) [] ∧ decode [0x01, 0x00] = .record (.init false) [] ∧
  decode [0x02] = .record .cycleReset [] ∧ decode [0x05] = .record .asmStart [] ∧
  decode [0x10, 0x00, 0x00, 0x00, 0x00, 0x00, 0x00, 0x27, 0xFE] = .record (.edgeFall 10238) [] ∧
  decode [0x11, 0x00, 0x00, 0x00, 0x00, 0x00, 0x00, 0x27, 0xE2] = .record (.edgeRise 10210) [] ∧
  decode [0x20, 0x31] = .record .tick [0x31] ∧ decode [0x30] = .record .asmRecv [] ∧
  decode [0x31] = .record .asmTimeout [] ∧ decode [0x32] = .record .validate []

/-- R78: each byte matches at most one row of the opcode map. -/
def Obligations.OpcodeRowsDoNotOverlap : Prop :=
  ∀ c : Byte, (opcodeTable.filter fun r => c &&& r.mask == r.pattern).length ≤ 1

/-- R70: the high four bits of an event's code name its class. -/
def Obligations.CodeClassField : Prop :=
  ∀ i : Instr, classOfCode (codeOf i) = some i.opcode.eventClass

/-- R75: decoding the record of an event gives the event, whatever follows it in the stream. -/
def Obligations.DecodeOfEncode : Prop :=
  ∀ (i : Instr) (rest : List Byte), decode (encode i ++ rest) = .record i rest

/-- R75, R76: only the record of an event decodes to it. -/
def Obligations.EncodeOfDecode : Prop :=
  ∀ (bs : List Byte) (i : Instr) (rest : List Byte), decode bs = .record i rest → bs = encode i ++ rest

/-- R75 and the vector V10: a proper prefix of a record is no record. -/
def Obligations.TruncatedRecordIsNoEvent : Prop :=
  ∀ (i : Instr) (bs tl : List Byte), encode i = bs ++ tl → tl ≠ [] → decode bs = .noRecord

/-- R76: the defined codes are 0x01 to 0x07, 0x10, 0x11, 0x20, 0x30, 0x31 and 0x32; a stream whose head is any other
byte, or INIT's code followed by an operand byte other than 0x00 and 0x01, is refused by name. -/
def Obligations.ReservedCodesAreRefused : Prop :=
  (∀ (s : State) (c : Byte) (rest : List Byte), s.fault = none → s.events = c :: rest →
    c ∉ ([0x01, 0x02, 0x03, 0x04, 0x05, 0x06, 0x07, 0x10, 0x11, 0x20, 0x30, 0x31, 0x32] : List Byte) →
    step s = .refused (.reservedCode c)) ∧
  (∀ (s : State) (b : Byte) (rest : List Byte), s.fault = none → s.events = 0x01 :: b :: rest →
    b ≠ 0x00 → b ≠ 0x01 → step s = .refused (.reservedCode b)) ∧
  (∀ c ∈ ([0x01, 0x02, 0x03, 0x04, 0x05, 0x06, 0x07, 0x10, 0x11, 0x20, 0x30, 0x31, 0x32] : List Byte),
    ∃ i : Instr, codeOf i = c)

/-- R79: an event printed in the trace syntax reads back as that event. -/
def Obligations.TraceTextReadsBack : Prop :=
  ∀ i : Instr, readLine (showEvent i) = some [i]

/-- R80: the expansions of the pseudo-events. -/
def Obligations.PseudoEventExpansions : Prop :=
  (∀ n, expandMacro (.ticks n) = some (List.replicate n .tick)) ∧
  (∀ n, expandMacro (.recvs n) = some (List.replicate n .asmRecv)) ∧
  (∀ t w, t + w < 2 ^ 64 → ∃ rise fall : Micros, expandMacro (.pulse t w) = some [.edgeRise rise, .edgeFall fall] ∧
    rise.toNat = t ∧ fall.toNat = t + w) ∧
  expandMacro .cycle = some [.irqDisarm, .cycleReset, .irqArm, .asmStart]

/-! ### The step -/

/-- Where the stream's head decodes to an event, the step is that event's meaning, on the state whose stream is the
rest; `step` adds nothing else. The stream is the model's (log 1). -/
def Obligations.StepRunsTheNextEvent : Prop :=
  ∀ (s : State) (i : Instr) (rest : List Byte), s.fault = none → decode s.events = .record i rest →
    step s = exec i { s with events := rest }

/-- The model's choice of log 2, on R77's "steps ASM takes by itself": with no whole record offered, ASM takes its
enabled step, and with none enabled nothing changes. -/
def Obligations.StepWithNothingOffered : Prop :=
  ∀ s : State, s.fault = none → decode s.events = .noRecord →
    (∀ i : Instr, i ∈ [Instr.asmRecv, .asmTimeout, .validate] → enabled i s = true → step s = exec i s) ∧
    ((∀ i : Instr, i ∈ [Instr.asmRecv, .asmTimeout, .validate] → enabled i s = false) → step s = .next s)

/-- R58, R75: stepping through a serialised trace is taking its events in order. The stream is the model's (log 1). -/
def Obligations.SteppingIsTakingTheTrace : Prop :=
  ∀ (is : List Instr) (s : State) (rest : List Byte),
    Host.Core.run Sys2Proof.core is.length { s with events := serialise is ++ rest } = runTrace is { s with events := rest }

/-! ### The classifier -/

/-- R100: a timed interval above 50 microseconds is a 1, any other a 0; the interval runs from the recorded rise. -/
def Obligations.ThresholdDecidesTheBit : Prop :=
  ∀ (s : State) (t : Micros), s.fault = none → s.armed = true → s.timing = true →
    s.lastRise.toNat ≤ t.toNat → s.chan.length < 40 →
    exec (.edgeFall t) s =
      .next { s with
        calls := s.calls + 1
        chan := s.chan ++ [if t.toNat - s.lastRise.toNat > 50 then 1 else 0] }

/-- R101, R105: EDGE_FALL in every state without a recorded fault. -/
def Obligations.EdgeFallFollowsItsRule : Prop :=
  ∀ (s : State) (t : Micros), s.fault = none →
    (s.armed = false → exec (.edgeFall t) s = .next s) ∧
    (s.armed = true → s.timing = true → t.toNat < s.lastRise.toNat →
      exec (.edgeFall t) s = .refused .nonMonotonicClock) ∧
    (s.armed = true → s.timing = false → exec (.edgeFall t) s = .next { s with calls := s.calls + 1 }) ∧
    (s.armed = true → s.timing = true → s.lastRise.toNat ≤ t.toNat → s.chan.length < 40 →
      exec (.edgeFall t) s =
        .next { s with calls := s.calls + 1, chan := s.chan ++ [classify (t - s.lastRise)] }) ∧
    (s.armed = true → s.timing = true → s.lastRise.toNat ≤ t.toNat → 40 ≤ s.chan.length →
      exec (.edgeFall t) s = .next { s with calls := s.calls + 1 })

/-- R102: EDGE_RISE in every state without a recorded fault. -/
def Obligations.EdgeRiseFollowsItsRule : Prop :=
  ∀ (s : State) (t : Micros), s.fault = none →
    (s.armed = false → exec (.edgeRise t) s = .next s) ∧
    (s.armed = true → s.awaitAck = true →
      exec (.edgeRise t) s = .next { s with calls := s.calls + 1, awaitAck := false }) ∧
    (s.armed = true → s.awaitAck = false →
      exec (.edgeRise t) s = .next { s with calls := s.calls + 1, lastRise := t, timing := true })

/-- R209: an edge leaves the worker's state as it was: it writes DecoderState and the channel, and nothing else. -/
def Obligations.EdgeKeepsTheWorkersState : Prop :=
  ∀ (i : Instr) (s s' : State), i.opcode.eventClass = .edge → exec i s = .next s' →
    s = { s' with
      awaitAck := s.awaitAck, timing := s.timing, lastRise := s.lastRise, calls := s.calls, chan := s.chan }

/-- R108: a delivered edge adds one to the call counter, modulo 2^32, and a disarmed one adds nothing. -/
def Obligations.EveryDeliveredEdgeIsCounted : Prop :=
  ∀ (i : Instr) (s s' : State), i.opcode.eventClass = .edge → exec i s = .next s' →
    s'.calls.toNat = if s.armed then (s.calls.toNat + 1) % 2 ^ 32 else s.calls.toNat

/-- R106: no falling edge clears `timing`, and every delivered falling edge with `timing` set classifies one bit,
which is queued where there is room. -/
def Obligations.FallingEdgeKeepsTiming : Prop :=
  ∀ (s s' : State) (t : Micros), exec (.edgeFall t) s = .next s' →
    s'.timing = s.timing ∧
    s'.chan.length = if s.armed ∧ s.timing ∧ s.chan.length < 40 then s.chan.length + 1 else s.chan.length

/-- R109 and the vector V26: the edges of a reply of `n` bits classify exactly `n` bits, one at each fall after the
first data rise, and count 2n + 4 calls. -/
def Obligations.ReplyOfBitsIsClassified : Prop :=
  ∀ (s : State) (t₁ t₂ t₃ t₄ : Micros) (bits : List (Micros × Micros)),
    s.fault = none → s.armed = true → s.awaitAck = true → s.timing = false →
    (∀ p ∈ bits, p.1.toNat ≤ p.2.toNat) → s.chan.length + bits.length ≤ 40 →
    runTrace (replyEdges t₁ t₂ t₃ bits t₄) s =
      .next { s with
        awaitAck := false
        timing := true
        lastRise := t₄
        calls := s.calls + BitVec.ofNat 32 (2 * bits.length + 4)
        chan := s.chan ++ bits.map fun p => if p.2.toNat - p.1.toNat > 50 then 1 else 0 }

/-! ### The accumulator -/

/-- R121: ASM_START in every state without a recorded fault. That a fault is a next state with the record as the one
field written is the model's reading (log 4). -/
def Obligations.AsmStartFollowsItsRule : Prop :=
  ∀ s : State, s.fault = none →
    (s.life ≠ .running → exec .asmStart s = .next { s with fault := some (.notRunning 0x05) }) ∧
    (s.life = .running → s.phase ≠ .idle →
      exec .asmStart s = .next { s with fault := some (.cycleOverlap 0x05 s.phase s.bitIndex) }) ∧
    (s.life = .running → s.phase = .idle →
      exec .asmStart s =
        .next { s with phase := .receiving, bitIndex := 0, frame := ⟨0, 0, 0, 0, 0⟩, waitTicks := 0 })

/-- R122: TICK in every state without a recorded fault. -/
def Obligations.TickFollowsItsRule : Prop :=
  ∀ s : State, s.fault = none →
    (s.phase = .receiving → exec .tick s = .next { s with waitTicks := min (s.waitTicks + 1) 500 }) ∧
    (s.phase ≠ .receiving → exec .tick s = .next s)

/-- R124, R126: ASM_RECV takes the channel's head into the byte being filled, most significant bit first, where it
is enabled; elsewhere it has no step. -/
def Obligations.AsmRecvFollowsItsRule : Prop :=
  ∀ s : State, s.fault = none →
    (∀ (b : Bit) (rest : List Bit), s.phase = .receiving → s.chan = b :: rest →
      exec .asmRecv s =
        .next { s with
          chan := rest
          frame := setFrameByte s.frame (s.bitIndex / 8)
            (BitVec.ofNat 8 (2 * (frameByte s.frame (s.bitIndex / 8)).toNat + b.toNat))
          bitIndex := s.bitIndex + 1
          waitTicks := 0
          phase := if s.bitIndex + 1 = 40 then .validating else .receiving }) ∧
    (s.phase ≠ .receiving ∨ s.chan = [] → ∀ s', exec .asmRecv s ≠ .next s')

/-- R130, R131: ASM_TIMEOUT, where it is enabled, emits its diagnostic and shifts in a 0, and the next bit has a
fresh deadline; elsewhere it has no step. -/
def Obligations.AsmTimeoutFollowsItsRule : Prop :=
  ∀ s : State, s.fault = none →
    (s.phase = .receiving → s.chan = [] → s.waitTicks = 500 →
      exec .asmTimeout s =
        .next { s with
          diag := s.diag ++ [⟨.timeout, s.bitIndex⟩]
          frame := setFrameByte s.frame (s.bitIndex / 8)
            (BitVec.ofNat 8 (2 * (frameByte s.frame (s.bitIndex / 8)).toNat))
          bitIndex := s.bitIndex + 1
          waitTicks := 0
          phase := if s.bitIndex + 1 = 40 then .validating else .receiving }) ∧
    (s.phase ≠ .receiving ∨ s.chan ≠ [] ∨ s.waitTicks ≠ 500 → ∀ s', exec .asmTimeout s ≠ .next s')

/-- R132: under the other policy the first timeout ends the cycle with status INVALID, keeps the reading and the
partly built frame, and keeps the invariants. -/
def Obligations.AbortPolicyEndsTheCycle : Prop :=
  ∀ s : State, Invariants s → s.phase = .receiving →
    timeoutUnder .abortInvalid s =
      { s with
        diag := s.diag ++ [⟨.timeout, s.bitIndex⟩]
        rdStatus := .invalid
        phase := .idle
        waitTicks := 0 } ∧
    endsCycle s (timeoutUnder .abortInvalid s) ∧ Invariants (timeoutUnder .abortInvalid s)

/-- R129, and the enabling conditions of R126, R130 and R155: no two of ASM's own steps are enabled together. -/
def Obligations.OwnStepsExcludeEachOther : Prop :=
  ∀ (s : State) (i j : Instr), i.opcode.eventClass = .internal → j.opcode.eventClass = .internal →
    enabled i s = true → enabled j s = true → i = j

/-- R125: the bits 1,0,1,0,1,0,1,0 shifted into an empty byte give 0xAA. -/
def Obligations.MsbFirstExample : Prop :=
  ∀ (s : State) (rest : List Bit), s.fault = none → s.phase = .receiving → s.bitIndex = 0 → s.frame.b0 = 0 →
    s.chan = [1, 0, 1, 0, 1, 0, 1, 0] ++ rest →
    runTrace (List.replicate 8 .asmRecv) s =
      .next { s with chan := rest, bitIndex := 8, waitTicks := 0, frame := { s.frame with b0 := 0xAA } }

/-- R52: the k-th bit a cycle accounts for lands in bit 7 - (k mod 8) of frame byte k div 8, whatever mix of received
and substituted bits and of other agents' events the cycle has, in every byte that is complete; and forty queued bits,
received one after the other, fill the frame so. Up to the next ASM_START or CYCLE_RESET the cycle is one. -/
def Obligations.BitsLandMsbFirst : Prop :=
  (∀ (is : List Instr) (s s' : State), s.phase = .receiving → s.bitIndex = 0 →
    Instr.asmStart ∉ is → Instr.cycleReset ∉ is → runTrace is s = .next s' →
    s'.bitIndex = (accountedBits is s).length ∧ s'.bitIndex ≤ 40 ∧
    ∀ k, 8 * (k / 8) + 8 ≤ s'.bitIndex →
      (frameByte s'.frame (k / 8)).getLsbD (7 - k % 8) = ((accountedBits is s)[k]? == some 1)) ∧
  (∀ (s : State) (bits rest : List Bit), s.fault = none → s.phase = .receiving → s.bitIndex = 0 →
    s.chan = bits ++ rest → bits.length = 40 →
    ∃ s' : State, runTrace (List.replicate 40 .asmRecv) s = .next s' ∧
      s'.phase = .validating ∧ s'.bitIndex = 40 ∧ s'.chan = rest ∧
      ∀ k, k < 40 → (frameByte s'.frame (k / 8)).getLsbD (7 - k % 8) = (bits[k]? == some 1))

/-- R134 and the vector V38: with no bit arriving, 40 times 500 ticks and a timeout fill the frame with zeros and
emit the diagnostics of the bits 0 to 39 in order. -/
def Obligations.SilentCycleTimesOutFortyTimes : Prop :=
  ∀ s : State, s.fault = none → s.phase = .receiving → s.bitIndex = 0 → s.waitTicks = 0 → s.chan = [] →
    runTrace (List.replicate 40 (List.replicate 500 Instr.tick ++ [.asmTimeout])).flatten s =
      .next { s with
        phase := .validating
        bitIndex := 40
        frame := ⟨0, 0, 0, 0, 0⟩
        diag := s.diag ++ (List.range 40).map fun k => ⟨.timeout, k⟩ }

/-- R62, R134: a cycle never waits for nothing: one of ASM's steps is enabled, or the deadline of an empty channel
is still running and the next TICK brings it one nearer. -/
def Obligations.CycleNeverStuck : Prop :=
  ∀ s : State, Invariants s → s.fault = none → s.phase ≠ .idle →
    (∃ (i : Instr) (s' : State), i.opcode.eventClass = .internal ∧ exec i s = .next s') ∨
    (s.phase = .receiving ∧ s.waitTicks < 500 ∧
      ∃ s' : State, exec .tick s = .next s' ∧ s'.waitTicks = s.waitTicks + 1)

/-! ### The validator -/

/-- R151, R155 to R157: VALIDATE, where it is enabled, publishes the whole reading when the checksum holds, and only
the status when it does not; elsewhere it has no step. -/
def Obligations.ValidateFollowsItsRule : Prop :=
  ∀ s : State, s.fault = none →
    (s.phase = .validating →
      s.frame.b4.toNat = (s.frame.b0.toNat + s.frame.b1.toNat + s.frame.b2.toNat + s.frame.b3.toNat) % 256 →
      exec .validate s =
        .next { s with
          rdHum := humTenths s.frame
          rdTemp := tempTenths s.frame
          rdStatus := .valid
          phase := .idle }) ∧
    (s.phase = .validating →
      s.frame.b4.toNat ≠ (s.frame.b0.toNat + s.frame.b1.toNat + s.frame.b2.toNat + s.frame.b3.toNat) % 256 →
      exec .validate s = .next { s with rdStatus := .checksumMismatch, phase := .idle }) ∧
    (s.phase ≠ .validating → ∀ s', exec .validate s ≠ .next s')

/-- R163: the fifth byte that equals the low byte of the sum is classified VALID, any other CHECKSUM_MISMATCH. -/
def Obligations.OnlyTheSumByteIsValid : Prop :=
  ∀ (s : State) (p0 p1 p2 p3 b : Byte), s.fault = none → s.phase = .validating → s.frame = ⟨p0, p1, p2, p3, b⟩ →
    ∃ s' : State, exec .validate s = .next s' ∧
      s'.rdStatus = if b = p0 + p1 + p2 + p3 then .valid else .checksumMismatch

/-- R153: the humidity is the big-endian value of the first two bytes. -/
def Obligations.HumidityValue : Prop :=
  ∀ f : Frame, (humTenths f).toNat = 256 * f.b0.toNat + f.b1.toNat

/-- R154: the temperature is a 15-bit big-endian magnitude with a sign bit; it lies in -32767 to 32767. -/
def Obligations.TemperatureValue : Prop :=
  ∀ f : Frame,
    (tempTenths f).toInt =
      (if 128 ≤ f.b2.toNat then -1 else 1) * (256 * (f.b2.toNat % 128 : Nat) + f.b3.toNat : Int) ∧
    -32767 ≤ (tempTenths f).toInt ∧ (tempTenths f).toInt ≤ 32767

/-- R164: setting the sign bit of a valid frame, with the checksum recomputed, negates the published temperature and
changes nothing else that VALIDATE publishes. -/
def Obligations.SignBitNegatesTheTemperature : Prop :=
  ∀ (s s' : State) (f : Frame), s.fault = none → s.phase = .validating → s.frame = f →
    f.b2.getLsbD 7 = false → exec .validate s = .next s' → s'.rdStatus = .valid →
    ∃ t : State,
      exec .validate { s with frame := { f with b2 := f.b2 ||| 0x80, b4 := f.b4 + 0x80 } } = .next t ∧
      t.rdStatus = .valid ∧ t.rdTemp.toInt = -s'.rdTemp.toInt ∧ t.rdHum = s'.rdHum

/-- R150: validation reads the five frame bytes and nothing else: states with equal frames end with the same status,
and with the same reading when it is VALID. -/
def Obligations.ValidationReadsOnlyTheFrame : Prop :=
  ∀ s t s' t' : State, s.frame = t.frame → exec .validate s = .next s' → exec .validate t = .next t' →
    s'.rdStatus = t'.rdStatus ∧
    (s'.rdStatus = .valid → s'.rdHum = t'.rdHum ∧ s'.rdTemp = t'.rdTemp)

/-- R160, R161: READ returns the three words of the record as it is now, in any lifecycle state and phase, and writes
no field of the block. That the returned value stands in `reply` is the model's choice (log 7). -/
def Obligations.ReadFollowsItsRule : Prop :=
  ∀ s : State, s.fault = none →
    exec .read s =
      .next { s with
        reply := some (.record
          (BitVec.ofNat 32 (65536 * s.rdHum.toNat + s.rdTemp.toNat))
          (match s.rdStatus with | .invalid => 0 | .valid => 1 | .checksumMismatch => 2)
          s.rdInterval) }

/-- R162: READ_DIAG returns the call counter, in any lifecycle state and phase, and writes no field of the block.
That the returned value stands in `reply` is the model's choice (log 7). -/
def Obligations.ReadDiagFollowsItsRule : Prop :=
  ∀ s : State, s.fault = none → exec .readDiag s = .next { s with reply := some (.diag s.calls) }

/-- R41: where the fields lie in the words READ returns; the reserved bits read 0, the status is never 3, and only
READ and READ_DIAG return a value. That the returned value stands in `reply` is the model's choice (log 7). -/
def Obligations.ReplyLayout : Prop :=
  (∀ s s' : State, exec .read s = .next s' →
    ∃ w0 w1 w2 : Word, s'.reply = some (.record w0 w1 w2) ∧
      w0.extractLsb' 0 16 = s.rdTemp ∧ w0.extractLsb' 16 16 = s.rdHum ∧
      w1.extractLsb' 0 2 = statusCode s.rdStatus ∧ w1.extractLsb' 0 2 ≠ 3 ∧ w1.extractLsb' 2 30 = 0 ∧
      w2 = s.rdInterval) ∧
  (∀ (i : Instr) (s s' : State), exec i s = .next s' → i ≠ .read → i ≠ .readDiag → s'.reply = s.reply)

/-! ### The control commands -/

/-- R180: INIT in every state without a recorded fault. That a fault is a next state with the record as the one
field written is the model's reading (log 4). -/
def Obligations.InitFollowsItsRule : Prop :=
  ∀ (s : State) (ok : Bool), s.fault = none →
    (s.life = .running → exec (.init ok) s = .next { s with fault := some (.doubleInit 0x01) }) ∧
    (s.life ≠ .running → ok = true →
      exec (.init ok) s = .next { s with life := .running, armed := true, chan := [] }) ∧
    (s.life ≠ .running → ok = false → exec (.init ok) s = .next { s with life := .failed, armed := false })

/-- R184: CYCLE_RESET in every state without a recorded fault. That a fault is a next state with the record as the
one field written is the model's reading (log 4). -/
def Obligations.CycleResetFollowsItsRule : Prop :=
  ∀ s : State, s.fault = none →
    (s.life ≠ .running → exec .cycleReset s = .next { s with fault := some (.notRunning 0x02) }) ∧
    (s.life = .running → s.phase ≠ .idle →
      exec .cycleReset s = .next { s with fault := some (.cycleOverlap 0x02 s.phase s.bitIndex) }) ∧
    (s.life = .running → s.phase = .idle →
      exec .cycleReset s =
        .next { s with
          awaitAck := true, timing := false, lastRise := 0, calls := 0, chan := []
          bitIndex := 0, frame := ⟨0, 0, 0, 0, 0⟩, waitTicks := 0 })

/-- R186, R187: IRQ_DISARM and IRQ_ARM in every state without a recorded fault. That a fault is a next state with
the record as the one field written is the model's reading (log 4). -/
def Obligations.ArmAndDisarmFollowTheirRules : Prop :=
  ∀ s : State, s.fault = none →
    (s.life ≠ .running →
      exec .irqDisarm s = .next { s with fault := some (.notRunning 0x03) } ∧
      exec .irqArm s = .next { s with fault := some (.notRunning 0x04) }) ∧
    (s.life = .running →
      exec .irqDisarm s = .next { s with armed := false } ∧ exec .irqArm s = .next { s with armed := true })

/-- R188: CYCLE_RESET, IRQ_DISARM and IRQ_ARM, issued twice in a row, leave the state of issuing them once. -/
def Obligations.RepeatedCommandsAreIdempotent : Prop :=
  ∀ (i : Instr) (s s' : State), i ∈ [Instr.cycleReset, .irqDisarm, .irqArm] →
    exec i s = .next s' → s'.fault = none → exec i s' = .next s'

/-- R231, R234: what a CYCLE_RESET leaves does not depend on the decoder's, the channel's or the accumulator's
history. -/
def Obligations.CycleResetForgetsTheLastCycle : Prop :=
  ∀ s t : State, s.phase = .idle → t.phase = .idle →
    s = { t with
      awaitAck := s.awaitAck, timing := s.timing, lastRise := s.lastRise, calls := s.calls, chan := s.chan
      bitIndex := s.bitIndex, frame := s.frame, waitTicks := s.waitTicks } →
    s.life = .running → exec .cycleReset s = exec .cycleReset t

/-- R103, R60: once disarmed, no event but IRQ_ARM lets an edge through: after any trace without IRQ_ARM, an edge
changes nothing. -/
def Obligations.DisarmedEdgesChangeNothing : Prop :=
  ∀ (is : List Instr) (s s₁ s₂ : State), exec .irqDisarm s = .next s₁ → Instr.irqArm ∉ is →
    runTrace is s₁ = .next s₂ → s₂.fault = none →
    ∀ t : Micros, exec (.edgeFall t) s₂ = .next s₂ ∧ exec (.edgeRise t) s₂ = .next s₂

/-- R24, R185: after a cycle reset issued while disarmed, the acknowledgement is still awaited, nothing is timed and
the channel is empty, whatever happens before the next IRQ_ARM. -/
def Obligations.ResetHoldsUntilArmed : Prop :=
  ∀ (is : List Instr) (s s₁ s₂ : State), s.armed = false → exec .cycleReset s = .next s₁ → s₁.fault = none →
    Instr.irqArm ∉ is → runTrace is s₁ = .next s₂ →
    s₂.awaitAck = true ∧ s₂.timing = false ∧ s₂.lastRise = 0 ∧ s₂.calls = 0 ∧ s₂.chan = []

/-! ### Faults, admission and enabling -/

/-- R39, R200: once a fault is recorded, no event has a step, and neither has the machine. The stop's name is the
model's (log 4). -/
def Obligations.FaultedStateIsQuiescent : Prop :=
  ∀ (s : State) (r : FaultRecord), s.fault = some r →
    step s = .fault (.quiescent r) ∧ ∀ i : Instr, exec i s = .fault (.quiescent r)

/-- A step into the fault state writes the fault record and nothing else. That it writes the record, and is a next
state, is the model's reading of R13 ("the state is not written") and R200 ("recorded in `S.fault`"): log 4. -/
def Obligations.FaultWritesOnlyItsRecord : Prop :=
  ∀ (i : Instr) (s s' : State), exec i s = .next s' → s'.fault ≠ none → s' = { s with fault := s'.fault }

/-- R189, R208: a command that is not admitted faults, with the kind and information of R200's table, and NotRunning
is reported before CycleOverlap. That a fault is a next state with the record as the one field written is the model's
reading (log 4). -/
def Obligations.UnadmittedCommandsFault : Prop :=
  ∀ (i : Instr) (s : State), s.fault = none → admitted i s = false →
    exec i s = .next { s with fault := some (
      if i.opcode = .init then .doubleInit (codeOf i)
      else if s.life ≠ .running then .notRunning (codeOf i)
      else .cycleOverlap (codeOf i) s.phase s.bitIndex) }

/-- R14, R189: an enabled and admitted event whose timestamp keeps the clock duty goes on, and records no fault. -/
def Obligations.AdmittedEventsGoOn : Prop :=
  ∀ (i : Instr) (s : State), enabled i s = true → admitted i s = true → clockDuty i s = true →
    ∃ s' : State, exec i s = .next s' ∧ s'.fault = none

/-- R14, R77: an event has no step exactly where its enabling condition is false; the model stops there (logs 4
and 5). -/
def Obligations.NoStepExactlyWhereNotEnabled : Prop :=
  ∀ (i : Instr) (s : State), (∃ r, exec i s = .fault r) ↔ enabled i s = false

/-- R203: exec refuses only a delivered falling edge that is timed before its recorded rise, and the step refuses
only that, where the edge is at the head of the stream, and a reserved byte there: a code outside the thirteen, or an
INIT operand byte other than 0x00 and 0x01. -/
def Obligations.RefusalsAreTheTwoOfTheSpec : Prop :=
  (∀ (i : Instr) (s : State) (r : Refusal), exec i s = .refused r →
    r = .nonMonotonicClock ∧ s.armed = true ∧ s.timing = true ∧
    ∃ t : Micros, i = .edgeFall t ∧ t.toNat < s.lastRise.toNat) ∧
  (∀ (s : State) (r : Refusal), step s = .refused r →
    (r = .nonMonotonicClock ∧ s.armed = true ∧ s.timing = true ∧
      ∃ (t : Micros) (rest : List Byte), decode s.events = .record (.edgeFall t) rest ∧
        t.toNat < s.lastRise.toNat) ∨
    (∃ (b : Byte) (rest : List Byte), r = .reservedCode b ∧ decode s.events = .reserved b ∧
      ((s.events = b :: rest ∧
          b ∉ ([0x01, 0x02, 0x03, 0x04, 0x05, 0x06, 0x07, 0x10, 0x11, 0x20, 0x30, 0x31, 0x32] : List Byte)) ∨
        (s.events = 0x01 :: b :: rest ∧ b ≠ 0x00 ∧ b ≠ 0x01))))

/-! ### Whole-machine rules -/

/-- R20, the column "written by", and R36: which events may change each field of the block. -/
def Obligations.FieldsAreWrittenByTheirEvents : Prop :=
  ∀ (i : Instr) (s s' : State), exec i s = .next s' →
    (i.opcode ∉ [Opcode.init] → s'.life = s.life) ∧
    (i.opcode ∉ [Opcode.init, .irqArm, .irqDisarm] → s'.armed = s.armed) ∧
    (i.opcode ∉ [Opcode.edgeRise, .cycleReset] →
      s'.awaitAck = s.awaitAck ∧ s'.timing = s.timing ∧ s'.lastRise = s.lastRise) ∧
    (i.opcode ∉ [Opcode.edgeFall, .edgeRise, .cycleReset] → s'.calls = s.calls) ∧
    (i.opcode ∉ [Opcode.edgeFall, .asmRecv, .init, .cycleReset] → s'.chan = s.chan) ∧
    (i.opcode ∉ [Opcode.asmStart, .asmRecv, .asmTimeout, .validate] → s'.phase = s.phase) ∧
    (i.opcode ∉ [Opcode.asmStart, .asmRecv, .asmTimeout, .cycleReset] →
      s'.bitIndex = s.bitIndex ∧ s'.frame = s.frame) ∧
    (i.opcode ∉ [Opcode.tick, .asmStart, .asmRecv, .asmTimeout, .cycleReset] → s'.waitTicks = s.waitTicks) ∧
    (i.opcode ∉ [Opcode.validate] →
      s'.rdTemp = s.rdTemp ∧ s'.rdHum = s.rdHum ∧ s'.rdStatus = s.rdStatus) ∧
    s'.rdInterval = s.rdInterval ∧
    (i.opcode ∉ [Opcode.asmTimeout] → s'.diag = s.diag) ∧
    s'.events = s.events

/-- R21: the bit index goes up by one on a receive or a substituted timeout, to 0 on ASM_START and CYCLE_RESET, is
changed by no other event, and is never beyond 40, where reception ends. -/
def Obligations.BitIndexNeverWraps : Prop :=
  ∀ (i : Instr) (s s' : State), Invariants s → exec i s = .next s' → s'.fault = none →
    s'.bitIndex ≤ 40 ∧
    (i ∈ [Instr.asmRecv, .asmTimeout] →
      s'.bitIndex = s.bitIndex + 1 ∧ (s'.bitIndex = 40 ↔ s'.phase = .validating)) ∧
    (i ∈ [Instr.asmStart, .cycleReset] → s'.bitIndex = 0) ∧
    (i ∉ [Instr.asmRecv, .asmTimeout, .asmStart, .cycleReset] → s'.bitIndex = s.bitIndex)

/-- R219: under the policy of this hardware, VALIDATE is the one event that ends a cycle. -/
def Obligations.OnlyValidateEndsACycle : Prop :=
  ∀ (i : Instr) (s s' : State), exec i s = .next s' → (endsCycle s s' ↔ i = .validate)

/-- R27, R38, R108: nothing but a read command's reply depends on the call counter, the outputs or the events to
come: states that differ only there stay so, and stop for the same reason. -/
def Obligations.ObservationIsNotRead : Prop :=
  ∀ (i : Instr) (s t : State), sameButObservation s t →
    outcomesAgree sameButObservation (exec i s) (exec i t)

/-- R181: after a failed setup, edges change nothing and cycle commands fault. That a fault is a next state with the
record as the one field written is the model's reading (log 4). -/
def Obligations.FailedSetupIsInert : Prop :=
  ∀ s : State, Invariants s → s.fault = none → s.life = .failed →
    (∀ i : Instr, i.opcode.eventClass = .edge → exec i s = .next s) ∧
    (∀ i : Instr, i ∈ [Instr.cycleReset, .irqDisarm, .irqArm, .asmStart] →
      exec i s = .next { s with fault := some (.notRunning (codeOf i)) })

/-- R43 at power-on. -/
def Obligations.InvariantsHoldAtReset : Prop := Invariants State.reset

/-- R43: every event of every agent keeps the invariants, from every state that has them. -/
def Obligations.EveryEventKeepsTheInvariants : Prop :=
  ∀ (i : Instr) (s s' : State), Invariants s → exec i s = .next s' → Invariants s'

/-- R43: every step keeps the invariants, from every state that has them. -/
def Obligations.StepKeepsTheInvariants : Prop :=
  ∀ s s' : State, Invariants s → step s = .next s' → Invariants s'
end

