-- ==== Sys2Proof/Laws/Decode.lean ====
section
/-! SUPPORT. Decoding and encoding, piece by piece: the opcode map and its inverse, and the timestamp bytes. -/

namespace Sys2Proof

@[simp] theorem opcodeOf_opcodeByte (o : Opcode) : opcodeOf (opcodeByte o) = some o := by
  cases o <;> decide

/-- The opcode map has one code per row. -/
theorem opcodeByte_of_opcodeOf : ∀ (c : Byte) (o : Opcode), opcodeOf c = some o → opcodeByte o = c := by
  intro c o
  revert c
  cases o <;> decide

/-- After the code byte of a row, the decoder reads that row's operand. -/
@[simp] theorem decode_opcodeByte (o : Opcode) (bs : List Byte) :
    decode (opcodeByte o :: bs) = decodeOperand o bs := by
  simp [decode]

@[simp] theorem timeBytes_length (t : Micros) : (timeBytes t).length = 8 := rfl

/-- Reading operand bytes one after the other, over naturals, while the value fits in 64 bits. -/
theorem toNat_foldBytes : ∀ (bs : List Byte) (acc : Micros), (acc.toNat + 1) * 256 ^ bs.length ≤ 2 ^ 64 →
    (bs.foldl (fun (a : Micros) (b : Byte) => (a <<< 8) ||| b.setWidth 64) acc).toNat =
      bs.foldl (fun (n : Nat) (b : Byte) => n * 256 + b.toNat) acc.toNat
  | [], _, _ => rfl
  | b :: bs, acc, h => by
    have hb := b.isLt
    have hpos : 0 < 256 ^ bs.length := by positivity
    rw [List.length_cons, pow_succ', ← mul_assoc] at h
    have hlt : (acc.toNat + 1) * 256 ≤ 2 ^ 64 := le_trans (Nat.le_mul_of_pos_right _ hpos) h
    have hstep : ((acc <<< 8) ||| b.setWidth 64).toNat = acc.toNat * 256 + b.toNat := by
      rw [BitVec.toNat_or, BitVec.toNat_shiftLeft, BitVec.toNat_setWidth, Nat.shiftLeft_eq,
        Nat.mod_eq_of_lt (by omega), Nat.mod_eq_of_lt (by omega), ← Nat.shiftLeft_eq,
        ← Nat.shiftLeft_add_eq_or_of_lt hb, Nat.shiftLeft_eq]
    rw [List.foldl_cons, List.foldl_cons, toNat_foldBytes bs, hstep]
    rw [hstep]
    exact le_trans (Nat.mul_le_mul_right _ (by omega)) h

/-- The timestamp of eight bytes, over naturals: the first byte weighs most. -/
theorem toNat_timeOfBytes (b7 b6 b5 b4 b3 b2 b1 b0 : Byte) :
    (timeOfBytes [b7, b6, b5, b4, b3, b2, b1, b0]).toNat =
      b7.toNat * 2 ^ 56 + b6.toNat * 2 ^ 48 + b5.toNat * 2 ^ 40 + b4.toNat * 2 ^ 32 +
      b3.toNat * 2 ^ 24 + b2.toNat * 2 ^ 16 + b1.toNat * 2 ^ 8 + b0.toNat := by
  rw [timeOfBytes, toNat_foldBytes _ _ (by simp)]
  simp only [List.foldl_cons, List.foldl_nil]
  have : (0 : Micros).toNat = 0 := rfl
  omega

/-- A timestamp survives its bytes. -/
@[simp] theorem timeOfBytes_timeBytes (t : Micros) : timeOfBytes (timeBytes t) = t := by
  apply BitVec.eq_of_toNat_eq
  rw [timeBytes, toNat_timeOfBytes]
  simp only [BitVec.extractLsb'_toNat, Nat.shiftRight_eq_div_pow]
  have := t.isLt
  omega

/-- Eight bytes survive their timestamp. -/
theorem timeBytes_timeOfBytes (b7 b6 b5 b4 b3 b2 b1 b0 : Byte) :
    timeBytes (timeOfBytes [b7, b6, b5, b4, b3, b2, b1, b0]) = [b7, b6, b5, b4, b3, b2, b1, b0] := by
  have h := toNat_timeOfBytes b7 b6 b5 b4 b3 b2 b1 b0
  have := b7.isLt; have := b6.isLt; have := b5.isLt; have := b4.isLt
  have := b3.isLt; have := b2.isLt; have := b1.isLt; have := b0.isLt
  simp only [timeBytes, List.cons.injEq, and_true]
  refine ⟨?_, ?_, ?_, ?_, ?_, ?_, ?_, ?_⟩ <;>
    (apply BitVec.eq_of_toNat_eq
     rw [BitVec.extractLsb'_toNat, h, Nat.shiftRight_eq_div_pow]
     omega)

end Sys2Proof
end

