-- ==== Sys2Proof/Laws/State.lean ====
section
/-! SUPPORT. One lemma per field per update of the state: what each update writes, and that it writes nothing else. -/

namespace Sys2Proof.Machine

variable (s : State)

/-! setEvents -/

@[simp] theorem State.setEvents_life (bs : List Byte) : (s.setEvents bs).life = s.life := rfl
@[simp] theorem State.setEvents_armed (bs : List Byte) : (s.setEvents bs).armed = s.armed := rfl
@[simp] theorem State.setEvents_awaitAck (bs : List Byte) : (s.setEvents bs).awaitAck = s.awaitAck := rfl
@[simp] theorem State.setEvents_timing (bs : List Byte) : (s.setEvents bs).timing = s.timing := rfl
@[simp] theorem State.setEvents_lastRise (bs : List Byte) : (s.setEvents bs).lastRise = s.lastRise := rfl
@[simp] theorem State.setEvents_calls (bs : List Byte) : (s.setEvents bs).calls = s.calls := rfl
@[simp] theorem State.setEvents_chan (bs : List Byte) : (s.setEvents bs).chan = s.chan := rfl
@[simp] theorem State.setEvents_phase (bs : List Byte) : (s.setEvents bs).phase = s.phase := rfl
@[simp] theorem State.setEvents_bitIndex (bs : List Byte) : (s.setEvents bs).bitIndex = s.bitIndex := rfl
@[simp] theorem State.setEvents_frame (bs : List Byte) : (s.setEvents bs).frame = s.frame := rfl
@[simp] theorem State.setEvents_waitTicks (bs : List Byte) : (s.setEvents bs).waitTicks = s.waitTicks := rfl
@[simp] theorem State.setEvents_rdTemp (bs : List Byte) : (s.setEvents bs).rdTemp = s.rdTemp := rfl
@[simp] theorem State.setEvents_rdHum (bs : List Byte) : (s.setEvents bs).rdHum = s.rdHum := rfl
@[simp] theorem State.setEvents_rdStatus (bs : List Byte) : (s.setEvents bs).rdStatus = s.rdStatus := rfl
@[simp] theorem State.setEvents_rdInterval (bs : List Byte) : (s.setEvents bs).rdInterval = s.rdInterval := rfl
@[simp] theorem State.setEvents_fault (bs : List Byte) : (s.setEvents bs).fault = s.fault := rfl
@[simp] theorem State.setEvents_diag (bs : List Byte) : (s.setEvents bs).diag = s.diag := rfl
@[simp] theorem State.setEvents_reply (bs : List Byte) : (s.setEvents bs).reply = s.reply := rfl
@[simp] theorem State.setEvents_events (bs : List Byte) : (s.setEvents bs).events = bs := rfl

/-! setLife -/

@[simp] theorem State.setLife_life (l : Life) : (s.setLife l).life = l := rfl
@[simp] theorem State.setLife_armed (l : Life) : (s.setLife l).armed = s.armed := rfl
@[simp] theorem State.setLife_awaitAck (l : Life) : (s.setLife l).awaitAck = s.awaitAck := rfl
@[simp] theorem State.setLife_timing (l : Life) : (s.setLife l).timing = s.timing := rfl
@[simp] theorem State.setLife_lastRise (l : Life) : (s.setLife l).lastRise = s.lastRise := rfl
@[simp] theorem State.setLife_calls (l : Life) : (s.setLife l).calls = s.calls := rfl
@[simp] theorem State.setLife_chan (l : Life) : (s.setLife l).chan = s.chan := rfl
@[simp] theorem State.setLife_phase (l : Life) : (s.setLife l).phase = s.phase := rfl
@[simp] theorem State.setLife_bitIndex (l : Life) : (s.setLife l).bitIndex = s.bitIndex := rfl
@[simp] theorem State.setLife_frame (l : Life) : (s.setLife l).frame = s.frame := rfl
@[simp] theorem State.setLife_waitTicks (l : Life) : (s.setLife l).waitTicks = s.waitTicks := rfl
@[simp] theorem State.setLife_rdTemp (l : Life) : (s.setLife l).rdTemp = s.rdTemp := rfl
@[simp] theorem State.setLife_rdHum (l : Life) : (s.setLife l).rdHum = s.rdHum := rfl
@[simp] theorem State.setLife_rdStatus (l : Life) : (s.setLife l).rdStatus = s.rdStatus := rfl
@[simp] theorem State.setLife_rdInterval (l : Life) : (s.setLife l).rdInterval = s.rdInterval := rfl
@[simp] theorem State.setLife_fault (l : Life) : (s.setLife l).fault = s.fault := rfl
@[simp] theorem State.setLife_diag (l : Life) : (s.setLife l).diag = s.diag := rfl
@[simp] theorem State.setLife_reply (l : Life) : (s.setLife l).reply = s.reply := rfl
@[simp] theorem State.setLife_events (l : Life) : (s.setLife l).events = s.events := rfl

/-! setArmed -/

@[simp] theorem State.setArmed_life (b : Bool) : (s.setArmed b).life = s.life := rfl
@[simp] theorem State.setArmed_armed (b : Bool) : (s.setArmed b).armed = b := rfl
@[simp] theorem State.setArmed_awaitAck (b : Bool) : (s.setArmed b).awaitAck = s.awaitAck := rfl
@[simp] theorem State.setArmed_timing (b : Bool) : (s.setArmed b).timing = s.timing := rfl
@[simp] theorem State.setArmed_lastRise (b : Bool) : (s.setArmed b).lastRise = s.lastRise := rfl
@[simp] theorem State.setArmed_calls (b : Bool) : (s.setArmed b).calls = s.calls := rfl
@[simp] theorem State.setArmed_chan (b : Bool) : (s.setArmed b).chan = s.chan := rfl
@[simp] theorem State.setArmed_phase (b : Bool) : (s.setArmed b).phase = s.phase := rfl
@[simp] theorem State.setArmed_bitIndex (b : Bool) : (s.setArmed b).bitIndex = s.bitIndex := rfl
@[simp] theorem State.setArmed_frame (b : Bool) : (s.setArmed b).frame = s.frame := rfl
@[simp] theorem State.setArmed_waitTicks (b : Bool) : (s.setArmed b).waitTicks = s.waitTicks := rfl
@[simp] theorem State.setArmed_rdTemp (b : Bool) : (s.setArmed b).rdTemp = s.rdTemp := rfl
@[simp] theorem State.setArmed_rdHum (b : Bool) : (s.setArmed b).rdHum = s.rdHum := rfl
@[simp] theorem State.setArmed_rdStatus (b : Bool) : (s.setArmed b).rdStatus = s.rdStatus := rfl
@[simp] theorem State.setArmed_rdInterval (b : Bool) : (s.setArmed b).rdInterval = s.rdInterval := rfl
@[simp] theorem State.setArmed_fault (b : Bool) : (s.setArmed b).fault = s.fault := rfl
@[simp] theorem State.setArmed_diag (b : Bool) : (s.setArmed b).diag = s.diag := rfl
@[simp] theorem State.setArmed_reply (b : Bool) : (s.setArmed b).reply = s.reply := rfl
@[simp] theorem State.setArmed_events (b : Bool) : (s.setArmed b).events = s.events := rfl

/-! setPhase -/

@[simp] theorem State.setPhase_life (p : Phase) : (s.setPhase p).life = s.life := rfl
@[simp] theorem State.setPhase_armed (p : Phase) : (s.setPhase p).armed = s.armed := rfl
@[simp] theorem State.setPhase_awaitAck (p : Phase) : (s.setPhase p).awaitAck = s.awaitAck := rfl
@[simp] theorem State.setPhase_timing (p : Phase) : (s.setPhase p).timing = s.timing := rfl
@[simp] theorem State.setPhase_lastRise (p : Phase) : (s.setPhase p).lastRise = s.lastRise := rfl
@[simp] theorem State.setPhase_calls (p : Phase) : (s.setPhase p).calls = s.calls := rfl
@[simp] theorem State.setPhase_chan (p : Phase) : (s.setPhase p).chan = s.chan := rfl
@[simp] theorem State.setPhase_phase (p : Phase) : (s.setPhase p).phase = p := rfl
@[simp] theorem State.setPhase_bitIndex (p : Phase) : (s.setPhase p).bitIndex = s.bitIndex := rfl
@[simp] theorem State.setPhase_frame (p : Phase) : (s.setPhase p).frame = s.frame := rfl
@[simp] theorem State.setPhase_waitTicks (p : Phase) : (s.setPhase p).waitTicks = s.waitTicks := rfl
@[simp] theorem State.setPhase_rdTemp (p : Phase) : (s.setPhase p).rdTemp = s.rdTemp := rfl
@[simp] theorem State.setPhase_rdHum (p : Phase) : (s.setPhase p).rdHum = s.rdHum := rfl
@[simp] theorem State.setPhase_rdStatus (p : Phase) : (s.setPhase p).rdStatus = s.rdStatus := rfl
@[simp] theorem State.setPhase_rdInterval (p : Phase) : (s.setPhase p).rdInterval = s.rdInterval := rfl
@[simp] theorem State.setPhase_fault (p : Phase) : (s.setPhase p).fault = s.fault := rfl
@[simp] theorem State.setPhase_diag (p : Phase) : (s.setPhase p).diag = s.diag := rfl
@[simp] theorem State.setPhase_reply (p : Phase) : (s.setPhase p).reply = s.reply := rfl
@[simp] theorem State.setPhase_events (p : Phase) : (s.setPhase p).events = s.events := rfl

/-! countCall -/

@[simp] theorem State.countCall_life : s.countCall.life = s.life := rfl
@[simp] theorem State.countCall_armed : s.countCall.armed = s.armed := rfl
@[simp] theorem State.countCall_awaitAck : s.countCall.awaitAck = s.awaitAck := rfl
@[simp] theorem State.countCall_timing : s.countCall.timing = s.timing := rfl
@[simp] theorem State.countCall_lastRise : s.countCall.lastRise = s.lastRise := rfl
@[simp] theorem State.countCall_calls : s.countCall.calls = s.calls + 1 := rfl
@[simp] theorem State.countCall_chan : s.countCall.chan = s.chan := rfl
@[simp] theorem State.countCall_phase : s.countCall.phase = s.phase := rfl
@[simp] theorem State.countCall_bitIndex : s.countCall.bitIndex = s.bitIndex := rfl
@[simp] theorem State.countCall_frame : s.countCall.frame = s.frame := rfl
@[simp] theorem State.countCall_waitTicks : s.countCall.waitTicks = s.waitTicks := rfl
@[simp] theorem State.countCall_rdTemp : s.countCall.rdTemp = s.rdTemp := rfl
@[simp] theorem State.countCall_rdHum : s.countCall.rdHum = s.rdHum := rfl
@[simp] theorem State.countCall_rdStatus : s.countCall.rdStatus = s.rdStatus := rfl
@[simp] theorem State.countCall_rdInterval : s.countCall.rdInterval = s.rdInterval := rfl
@[simp] theorem State.countCall_fault : s.countCall.fault = s.fault := rfl
@[simp] theorem State.countCall_diag : s.countCall.diag = s.diag := rfl
@[simp] theorem State.countCall_reply : s.countCall.reply = s.reply := rfl
@[simp] theorem State.countCall_events : s.countCall.events = s.events := rfl

/-! chanPush -/

@[simp] theorem State.chanPush_life (b : Bit) : (s.chanPush b).life = s.life := rfl
@[simp] theorem State.chanPush_armed (b : Bit) : (s.chanPush b).armed = s.armed := rfl
@[simp] theorem State.chanPush_awaitAck (b : Bit) : (s.chanPush b).awaitAck = s.awaitAck := rfl
@[simp] theorem State.chanPush_timing (b : Bit) : (s.chanPush b).timing = s.timing := rfl
@[simp] theorem State.chanPush_lastRise (b : Bit) : (s.chanPush b).lastRise = s.lastRise := rfl
@[simp] theorem State.chanPush_calls (b : Bit) : (s.chanPush b).calls = s.calls := rfl
@[simp] theorem State.chanPush_chan (b : Bit) : (s.chanPush b).chan = s.chan ++ [b] := rfl
@[simp] theorem State.chanPush_phase (b : Bit) : (s.chanPush b).phase = s.phase := rfl
@[simp] theorem State.chanPush_bitIndex (b : Bit) : (s.chanPush b).bitIndex = s.bitIndex := rfl
@[simp] theorem State.chanPush_frame (b : Bit) : (s.chanPush b).frame = s.frame := rfl
@[simp] theorem State.chanPush_waitTicks (b : Bit) : (s.chanPush b).waitTicks = s.waitTicks := rfl
@[simp] theorem State.chanPush_rdTemp (b : Bit) : (s.chanPush b).rdTemp = s.rdTemp := rfl
@[simp] theorem State.chanPush_rdHum (b : Bit) : (s.chanPush b).rdHum = s.rdHum := rfl
@[simp] theorem State.chanPush_rdStatus (b : Bit) : (s.chanPush b).rdStatus = s.rdStatus := rfl
@[simp] theorem State.chanPush_rdInterval (b : Bit) : (s.chanPush b).rdInterval = s.rdInterval := rfl
@[simp] theorem State.chanPush_fault (b : Bit) : (s.chanPush b).fault = s.fault := rfl
@[simp] theorem State.chanPush_diag (b : Bit) : (s.chanPush b).diag = s.diag := rfl
@[simp] theorem State.chanPush_reply (b : Bit) : (s.chanPush b).reply = s.reply := rfl
@[simp] theorem State.chanPush_events (b : Bit) : (s.chanPush b).events = s.events := rfl

/-! chanPop -/

@[simp] theorem State.chanPop_life : s.chanPop.life = s.life := rfl
@[simp] theorem State.chanPop_armed : s.chanPop.armed = s.armed := rfl
@[simp] theorem State.chanPop_awaitAck : s.chanPop.awaitAck = s.awaitAck := rfl
@[simp] theorem State.chanPop_timing : s.chanPop.timing = s.timing := rfl
@[simp] theorem State.chanPop_lastRise : s.chanPop.lastRise = s.lastRise := rfl
@[simp] theorem State.chanPop_calls : s.chanPop.calls = s.calls := rfl
@[simp] theorem State.chanPop_chan : s.chanPop.chan = s.chan.tail := rfl
@[simp] theorem State.chanPop_phase : s.chanPop.phase = s.phase := rfl
@[simp] theorem State.chanPop_bitIndex : s.chanPop.bitIndex = s.bitIndex := rfl
@[simp] theorem State.chanPop_frame : s.chanPop.frame = s.frame := rfl
@[simp] theorem State.chanPop_waitTicks : s.chanPop.waitTicks = s.waitTicks := rfl
@[simp] theorem State.chanPop_rdTemp : s.chanPop.rdTemp = s.rdTemp := rfl
@[simp] theorem State.chanPop_rdHum : s.chanPop.rdHum = s.rdHum := rfl
@[simp] theorem State.chanPop_rdStatus : s.chanPop.rdStatus = s.rdStatus := rfl
@[simp] theorem State.chanPop_rdInterval : s.chanPop.rdInterval = s.rdInterval := rfl
@[simp] theorem State.chanPop_fault : s.chanPop.fault = s.fault := rfl
@[simp] theorem State.chanPop_diag : s.chanPop.diag = s.diag := rfl
@[simp] theorem State.chanPop_reply : s.chanPop.reply = s.reply := rfl
@[simp] theorem State.chanPop_events : s.chanPop.events = s.events := rfl

/-! chanFlush -/

@[simp] theorem State.chanFlush_life : s.chanFlush.life = s.life := rfl
@[simp] theorem State.chanFlush_armed : s.chanFlush.armed = s.armed := rfl
@[simp] theorem State.chanFlush_awaitAck : s.chanFlush.awaitAck = s.awaitAck := rfl
@[simp] theorem State.chanFlush_timing : s.chanFlush.timing = s.timing := rfl
@[simp] theorem State.chanFlush_lastRise : s.chanFlush.lastRise = s.lastRise := rfl
@[simp] theorem State.chanFlush_calls : s.chanFlush.calls = s.calls := rfl
@[simp] theorem State.chanFlush_chan : s.chanFlush.chan = [] := rfl
@[simp] theorem State.chanFlush_phase : s.chanFlush.phase = s.phase := rfl
@[simp] theorem State.chanFlush_bitIndex : s.chanFlush.bitIndex = s.bitIndex := rfl
@[simp] theorem State.chanFlush_frame : s.chanFlush.frame = s.frame := rfl
@[simp] theorem State.chanFlush_waitTicks : s.chanFlush.waitTicks = s.waitTicks := rfl
@[simp] theorem State.chanFlush_rdTemp : s.chanFlush.rdTemp = s.rdTemp := rfl
@[simp] theorem State.chanFlush_rdHum : s.chanFlush.rdHum = s.rdHum := rfl
@[simp] theorem State.chanFlush_rdStatus : s.chanFlush.rdStatus = s.rdStatus := rfl
@[simp] theorem State.chanFlush_rdInterval : s.chanFlush.rdInterval = s.rdInterval := rfl
@[simp] theorem State.chanFlush_fault : s.chanFlush.fault = s.fault := rfl
@[simp] theorem State.chanFlush_diag : s.chanFlush.diag = s.diag := rfl
@[simp] theorem State.chanFlush_reply : s.chanFlush.reply = s.reply := rfl
@[simp] theorem State.chanFlush_events : s.chanFlush.events = s.events := rfl

/-! takeAck -/

@[simp] theorem State.takeAck_life : s.takeAck.life = s.life := rfl
@[simp] theorem State.takeAck_armed : s.takeAck.armed = s.armed := rfl
@[simp] theorem State.takeAck_awaitAck : s.takeAck.awaitAck = false := rfl
@[simp] theorem State.takeAck_timing : s.takeAck.timing = s.timing := rfl
@[simp] theorem State.takeAck_lastRise : s.takeAck.lastRise = s.lastRise := rfl
@[simp] theorem State.takeAck_calls : s.takeAck.calls = s.calls := rfl
@[simp] theorem State.takeAck_chan : s.takeAck.chan = s.chan := rfl
@[simp] theorem State.takeAck_phase : s.takeAck.phase = s.phase := rfl
@[simp] theorem State.takeAck_bitIndex : s.takeAck.bitIndex = s.bitIndex := rfl
@[simp] theorem State.takeAck_frame : s.takeAck.frame = s.frame := rfl
@[simp] theorem State.takeAck_waitTicks : s.takeAck.waitTicks = s.waitTicks := rfl
@[simp] theorem State.takeAck_rdTemp : s.takeAck.rdTemp = s.rdTemp := rfl
@[simp] theorem State.takeAck_rdHum : s.takeAck.rdHum = s.rdHum := rfl
@[simp] theorem State.takeAck_rdStatus : s.takeAck.rdStatus = s.rdStatus := rfl
@[simp] theorem State.takeAck_rdInterval : s.takeAck.rdInterval = s.rdInterval := rfl
@[simp] theorem State.takeAck_fault : s.takeAck.fault = s.fault := rfl
@[simp] theorem State.takeAck_diag : s.takeAck.diag = s.diag := rfl
@[simp] theorem State.takeAck_reply : s.takeAck.reply = s.reply := rfl
@[simp] theorem State.takeAck_events : s.takeAck.events = s.events := rfl

/-! recordRise -/

@[simp] theorem State.recordRise_life (t : Micros) : (s.recordRise t).life = s.life := rfl
@[simp] theorem State.recordRise_armed (t : Micros) : (s.recordRise t).armed = s.armed := rfl
@[simp] theorem State.recordRise_awaitAck (t : Micros) : (s.recordRise t).awaitAck = s.awaitAck := rfl
@[simp] theorem State.recordRise_timing (t : Micros) : (s.recordRise t).timing = true := rfl
@[simp] theorem State.recordRise_lastRise (t : Micros) : (s.recordRise t).lastRise = t := rfl
@[simp] theorem State.recordRise_calls (t : Micros) : (s.recordRise t).calls = s.calls := rfl
@[simp] theorem State.recordRise_chan (t : Micros) : (s.recordRise t).chan = s.chan := rfl
@[simp] theorem State.recordRise_phase (t : Micros) : (s.recordRise t).phase = s.phase := rfl
@[simp] theorem State.recordRise_bitIndex (t : Micros) : (s.recordRise t).bitIndex = s.bitIndex := rfl
@[simp] theorem State.recordRise_frame (t : Micros) : (s.recordRise t).frame = s.frame := rfl
@[simp] theorem State.recordRise_waitTicks (t : Micros) : (s.recordRise t).waitTicks = s.waitTicks := rfl
@[simp] theorem State.recordRise_rdTemp (t : Micros) : (s.recordRise t).rdTemp = s.rdTemp := rfl
@[simp] theorem State.recordRise_rdHum (t : Micros) : (s.recordRise t).rdHum = s.rdHum := rfl
@[simp] theorem State.recordRise_rdStatus (t : Micros) : (s.recordRise t).rdStatus = s.rdStatus := rfl
@[simp] theorem State.recordRise_rdInterval (t : Micros) : (s.recordRise t).rdInterval = s.rdInterval := rfl
@[simp] theorem State.recordRise_fault (t : Micros) : (s.recordRise t).fault = s.fault := rfl
@[simp] theorem State.recordRise_diag (t : Micros) : (s.recordRise t).diag = s.diag := rfl
@[simp] theorem State.recordRise_reply (t : Micros) : (s.recordRise t).reply = s.reply := rfl
@[simp] theorem State.recordRise_events (t : Micros) : (s.recordRise t).events = s.events := rfl

/-! resetDecoder -/

@[simp] theorem State.resetDecoder_life : s.resetDecoder.life = s.life := rfl
@[simp] theorem State.resetDecoder_armed : s.resetDecoder.armed = s.armed := rfl
@[simp] theorem State.resetDecoder_awaitAck : s.resetDecoder.awaitAck = true := rfl
@[simp] theorem State.resetDecoder_timing : s.resetDecoder.timing = false := rfl
@[simp] theorem State.resetDecoder_lastRise : s.resetDecoder.lastRise = 0 := rfl
@[simp] theorem State.resetDecoder_calls : s.resetDecoder.calls = 0 := rfl
@[simp] theorem State.resetDecoder_chan : s.resetDecoder.chan = s.chan := rfl
@[simp] theorem State.resetDecoder_phase : s.resetDecoder.phase = s.phase := rfl
@[simp] theorem State.resetDecoder_bitIndex : s.resetDecoder.bitIndex = s.bitIndex := rfl
@[simp] theorem State.resetDecoder_frame : s.resetDecoder.frame = s.frame := rfl
@[simp] theorem State.resetDecoder_waitTicks : s.resetDecoder.waitTicks = s.waitTicks := rfl
@[simp] theorem State.resetDecoder_rdTemp : s.resetDecoder.rdTemp = s.rdTemp := rfl
@[simp] theorem State.resetDecoder_rdHum : s.resetDecoder.rdHum = s.rdHum := rfl
@[simp] theorem State.resetDecoder_rdStatus : s.resetDecoder.rdStatus = s.rdStatus := rfl
@[simp] theorem State.resetDecoder_rdInterval : s.resetDecoder.rdInterval = s.rdInterval := rfl
@[simp] theorem State.resetDecoder_fault : s.resetDecoder.fault = s.fault := rfl
@[simp] theorem State.resetDecoder_diag : s.resetDecoder.diag = s.diag := rfl
@[simp] theorem State.resetDecoder_reply : s.resetDecoder.reply = s.reply := rfl
@[simp] theorem State.resetDecoder_events : s.resetDecoder.events = s.events := rfl

/-! clearAccumulator -/

@[simp] theorem State.clearAccumulator_life : s.clearAccumulator.life = s.life := rfl
@[simp] theorem State.clearAccumulator_armed : s.clearAccumulator.armed = s.armed := rfl
@[simp] theorem State.clearAccumulator_awaitAck : s.clearAccumulator.awaitAck = s.awaitAck := rfl
@[simp] theorem State.clearAccumulator_timing : s.clearAccumulator.timing = s.timing := rfl
@[simp] theorem State.clearAccumulator_lastRise : s.clearAccumulator.lastRise = s.lastRise := rfl
@[simp] theorem State.clearAccumulator_calls : s.clearAccumulator.calls = s.calls := rfl
@[simp] theorem State.clearAccumulator_chan : s.clearAccumulator.chan = s.chan := rfl
@[simp] theorem State.clearAccumulator_phase : s.clearAccumulator.phase = s.phase := rfl
@[simp] theorem State.clearAccumulator_bitIndex : s.clearAccumulator.bitIndex = 0 := rfl
@[simp] theorem State.clearAccumulator_frame : s.clearAccumulator.frame = Frame.zero := rfl
@[simp] theorem State.clearAccumulator_waitTicks : s.clearAccumulator.waitTicks = 0 := rfl
@[simp] theorem State.clearAccumulator_rdTemp : s.clearAccumulator.rdTemp = s.rdTemp := rfl
@[simp] theorem State.clearAccumulator_rdHum : s.clearAccumulator.rdHum = s.rdHum := rfl
@[simp] theorem State.clearAccumulator_rdStatus : s.clearAccumulator.rdStatus = s.rdStatus := rfl
@[simp] theorem State.clearAccumulator_rdInterval : s.clearAccumulator.rdInterval = s.rdInterval := rfl
@[simp] theorem State.clearAccumulator_fault : s.clearAccumulator.fault = s.fault := rfl
@[simp] theorem State.clearAccumulator_diag : s.clearAccumulator.diag = s.diag := rfl
@[simp] theorem State.clearAccumulator_reply : s.clearAccumulator.reply = s.reply := rfl
@[simp] theorem State.clearAccumulator_events : s.clearAccumulator.events = s.events := rfl

/-! countTick -/

@[simp] theorem State.countTick_life : s.countTick.life = s.life := rfl
@[simp] theorem State.countTick_armed : s.countTick.armed = s.armed := rfl
@[simp] theorem State.countTick_awaitAck : s.countTick.awaitAck = s.awaitAck := rfl
@[simp] theorem State.countTick_timing : s.countTick.timing = s.timing := rfl
@[simp] theorem State.countTick_lastRise : s.countTick.lastRise = s.lastRise := rfl
@[simp] theorem State.countTick_calls : s.countTick.calls = s.calls := rfl
@[simp] theorem State.countTick_chan : s.countTick.chan = s.chan := rfl
@[simp] theorem State.countTick_phase : s.countTick.phase = s.phase := rfl
@[simp] theorem State.countTick_bitIndex : s.countTick.bitIndex = s.bitIndex := rfl
@[simp] theorem State.countTick_frame : s.countTick.frame = s.frame := rfl
@[simp] theorem State.countTick_waitTicks : s.countTick.waitTicks = min (s.waitTicks + 1) Config.deadlineTicks := rfl
@[simp] theorem State.countTick_rdTemp : s.countTick.rdTemp = s.rdTemp := rfl
@[simp] theorem State.countTick_rdHum : s.countTick.rdHum = s.rdHum := rfl
@[simp] theorem State.countTick_rdStatus : s.countTick.rdStatus = s.rdStatus := rfl
@[simp] theorem State.countTick_rdInterval : s.countTick.rdInterval = s.rdInterval := rfl
@[simp] theorem State.countTick_fault : s.countTick.fault = s.fault := rfl
@[simp] theorem State.countTick_diag : s.countTick.diag = s.diag := rfl
@[simp] theorem State.countTick_reply : s.countTick.reply = s.reply := rfl
@[simp] theorem State.countTick_events : s.countTick.events = s.events := rfl

/-! clearTicks -/

@[simp] theorem State.clearTicks_life : s.clearTicks.life = s.life := rfl
@[simp] theorem State.clearTicks_armed : s.clearTicks.armed = s.armed := rfl
@[simp] theorem State.clearTicks_awaitAck : s.clearTicks.awaitAck = s.awaitAck := rfl
@[simp] theorem State.clearTicks_timing : s.clearTicks.timing = s.timing := rfl
@[simp] theorem State.clearTicks_lastRise : s.clearTicks.lastRise = s.lastRise := rfl
@[simp] theorem State.clearTicks_calls : s.clearTicks.calls = s.calls := rfl
@[simp] theorem State.clearTicks_chan : s.clearTicks.chan = s.chan := rfl
@[simp] theorem State.clearTicks_phase : s.clearTicks.phase = s.phase := rfl
@[simp] theorem State.clearTicks_bitIndex : s.clearTicks.bitIndex = s.bitIndex := rfl
@[simp] theorem State.clearTicks_frame : s.clearTicks.frame = s.frame := rfl
@[simp] theorem State.clearTicks_waitTicks : s.clearTicks.waitTicks = 0 := rfl
@[simp] theorem State.clearTicks_rdTemp : s.clearTicks.rdTemp = s.rdTemp := rfl
@[simp] theorem State.clearTicks_rdHum : s.clearTicks.rdHum = s.rdHum := rfl
@[simp] theorem State.clearTicks_rdStatus : s.clearTicks.rdStatus = s.rdStatus := rfl
@[simp] theorem State.clearTicks_rdInterval : s.clearTicks.rdInterval = s.rdInterval := rfl
@[simp] theorem State.clearTicks_fault : s.clearTicks.fault = s.fault := rfl
@[simp] theorem State.clearTicks_diag : s.clearTicks.diag = s.diag := rfl
@[simp] theorem State.clearTicks_reply : s.clearTicks.reply = s.reply := rfl
@[simp] theorem State.clearTicks_events : s.clearTicks.events = s.events := rfl

/-! setStatus -/

@[simp] theorem State.setStatus_life (st : Status) : (s.setStatus st).life = s.life := rfl
@[simp] theorem State.setStatus_armed (st : Status) : (s.setStatus st).armed = s.armed := rfl
@[simp] theorem State.setStatus_awaitAck (st : Status) : (s.setStatus st).awaitAck = s.awaitAck := rfl
@[simp] theorem State.setStatus_timing (st : Status) : (s.setStatus st).timing = s.timing := rfl
@[simp] theorem State.setStatus_lastRise (st : Status) : (s.setStatus st).lastRise = s.lastRise := rfl
@[simp] theorem State.setStatus_calls (st : Status) : (s.setStatus st).calls = s.calls := rfl
@[simp] theorem State.setStatus_chan (st : Status) : (s.setStatus st).chan = s.chan := rfl
@[simp] theorem State.setStatus_phase (st : Status) : (s.setStatus st).phase = s.phase := rfl
@[simp] theorem State.setStatus_bitIndex (st : Status) : (s.setStatus st).bitIndex = s.bitIndex := rfl
@[simp] theorem State.setStatus_frame (st : Status) : (s.setStatus st).frame = s.frame := rfl
@[simp] theorem State.setStatus_waitTicks (st : Status) : (s.setStatus st).waitTicks = s.waitTicks := rfl
@[simp] theorem State.setStatus_rdTemp (st : Status) : (s.setStatus st).rdTemp = s.rdTemp := rfl
@[simp] theorem State.setStatus_rdHum (st : Status) : (s.setStatus st).rdHum = s.rdHum := rfl
@[simp] theorem State.setStatus_rdStatus (st : Status) : (s.setStatus st).rdStatus = st := rfl
@[simp] theorem State.setStatus_rdInterval (st : Status) : (s.setStatus st).rdInterval = s.rdInterval := rfl
@[simp] theorem State.setStatus_fault (st : Status) : (s.setStatus st).fault = s.fault := rfl
@[simp] theorem State.setStatus_diag (st : Status) : (s.setStatus st).diag = s.diag := rfl
@[simp] theorem State.setStatus_reply (st : Status) : (s.setStatus st).reply = s.reply := rfl
@[simp] theorem State.setStatus_events (st : Status) : (s.setStatus st).events = s.events := rfl

/-! publish -/

@[simp] theorem State.publish_life (hum temp : Half) : (s.publish hum temp).life = s.life := rfl
@[simp] theorem State.publish_armed (hum temp : Half) : (s.publish hum temp).armed = s.armed := rfl
@[simp] theorem State.publish_awaitAck (hum temp : Half) : (s.publish hum temp).awaitAck = s.awaitAck := rfl
@[simp] theorem State.publish_timing (hum temp : Half) : (s.publish hum temp).timing = s.timing := rfl
@[simp] theorem State.publish_lastRise (hum temp : Half) : (s.publish hum temp).lastRise = s.lastRise := rfl
@[simp] theorem State.publish_calls (hum temp : Half) : (s.publish hum temp).calls = s.calls := rfl
@[simp] theorem State.publish_chan (hum temp : Half) : (s.publish hum temp).chan = s.chan := rfl
@[simp] theorem State.publish_phase (hum temp : Half) : (s.publish hum temp).phase = s.phase := rfl
@[simp] theorem State.publish_bitIndex (hum temp : Half) : (s.publish hum temp).bitIndex = s.bitIndex := rfl
@[simp] theorem State.publish_frame (hum temp : Half) : (s.publish hum temp).frame = s.frame := rfl
@[simp] theorem State.publish_waitTicks (hum temp : Half) : (s.publish hum temp).waitTicks = s.waitTicks := rfl
@[simp] theorem State.publish_rdTemp (hum temp : Half) : (s.publish hum temp).rdTemp = temp := rfl
@[simp] theorem State.publish_rdHum (hum temp : Half) : (s.publish hum temp).rdHum = hum := rfl
@[simp] theorem State.publish_rdStatus (hum temp : Half) : (s.publish hum temp).rdStatus = .valid := rfl
@[simp] theorem State.publish_rdInterval (hum temp : Half) : (s.publish hum temp).rdInterval = s.rdInterval := rfl
@[simp] theorem State.publish_fault (hum temp : Half) : (s.publish hum temp).fault = s.fault := rfl
@[simp] theorem State.publish_diag (hum temp : Half) : (s.publish hum temp).diag = s.diag := rfl
@[simp] theorem State.publish_reply (hum temp : Half) : (s.publish hum temp).reply = s.reply := rfl
@[simp] theorem State.publish_events (hum temp : Half) : (s.publish hum temp).events = s.events := rfl

/-! emitDiag -/

@[simp] theorem State.emitDiag_life (d : Diag) : (s.emitDiag d).life = s.life := rfl
@[simp] theorem State.emitDiag_armed (d : Diag) : (s.emitDiag d).armed = s.armed := rfl
@[simp] theorem State.emitDiag_awaitAck (d : Diag) : (s.emitDiag d).awaitAck = s.awaitAck := rfl
@[simp] theorem State.emitDiag_timing (d : Diag) : (s.emitDiag d).timing = s.timing := rfl
@[simp] theorem State.emitDiag_lastRise (d : Diag) : (s.emitDiag d).lastRise = s.lastRise := rfl
@[simp] theorem State.emitDiag_calls (d : Diag) : (s.emitDiag d).calls = s.calls := rfl
@[simp] theorem State.emitDiag_chan (d : Diag) : (s.emitDiag d).chan = s.chan := rfl
@[simp] theorem State.emitDiag_phase (d : Diag) : (s.emitDiag d).phase = s.phase := rfl
@[simp] theorem State.emitDiag_bitIndex (d : Diag) : (s.emitDiag d).bitIndex = s.bitIndex := rfl
@[simp] theorem State.emitDiag_frame (d : Diag) : (s.emitDiag d).frame = s.frame := rfl
@[simp] theorem State.emitDiag_waitTicks (d : Diag) : (s.emitDiag d).waitTicks = s.waitTicks := rfl
@[simp] theorem State.emitDiag_rdTemp (d : Diag) : (s.emitDiag d).rdTemp = s.rdTemp := rfl
@[simp] theorem State.emitDiag_rdHum (d : Diag) : (s.emitDiag d).rdHum = s.rdHum := rfl
@[simp] theorem State.emitDiag_rdStatus (d : Diag) : (s.emitDiag d).rdStatus = s.rdStatus := rfl
@[simp] theorem State.emitDiag_rdInterval (d : Diag) : (s.emitDiag d).rdInterval = s.rdInterval := rfl
@[simp] theorem State.emitDiag_fault (d : Diag) : (s.emitDiag d).fault = s.fault := rfl
@[simp] theorem State.emitDiag_diag (d : Diag) : (s.emitDiag d).diag = s.diag ++ [d] := rfl
@[simp] theorem State.emitDiag_reply (d : Diag) : (s.emitDiag d).reply = s.reply := rfl
@[simp] theorem State.emitDiag_events (d : Diag) : (s.emitDiag d).events = s.events := rfl

/-! answer -/

@[simp] theorem State.answer_life (r : Reply) : (s.answer r).life = s.life := rfl
@[simp] theorem State.answer_armed (r : Reply) : (s.answer r).armed = s.armed := rfl
@[simp] theorem State.answer_awaitAck (r : Reply) : (s.answer r).awaitAck = s.awaitAck := rfl
@[simp] theorem State.answer_timing (r : Reply) : (s.answer r).timing = s.timing := rfl
@[simp] theorem State.answer_lastRise (r : Reply) : (s.answer r).lastRise = s.lastRise := rfl
@[simp] theorem State.answer_calls (r : Reply) : (s.answer r).calls = s.calls := rfl
@[simp] theorem State.answer_chan (r : Reply) : (s.answer r).chan = s.chan := rfl
@[simp] theorem State.answer_phase (r : Reply) : (s.answer r).phase = s.phase := rfl
@[simp] theorem State.answer_bitIndex (r : Reply) : (s.answer r).bitIndex = s.bitIndex := rfl
@[simp] theorem State.answer_frame (r : Reply) : (s.answer r).frame = s.frame := rfl
@[simp] theorem State.answer_waitTicks (r : Reply) : (s.answer r).waitTicks = s.waitTicks := rfl
@[simp] theorem State.answer_rdTemp (r : Reply) : (s.answer r).rdTemp = s.rdTemp := rfl
@[simp] theorem State.answer_rdHum (r : Reply) : (s.answer r).rdHum = s.rdHum := rfl
@[simp] theorem State.answer_rdStatus (r : Reply) : (s.answer r).rdStatus = s.rdStatus := rfl
@[simp] theorem State.answer_rdInterval (r : Reply) : (s.answer r).rdInterval = s.rdInterval := rfl
@[simp] theorem State.answer_fault (r : Reply) : (s.answer r).fault = s.fault := rfl
@[simp] theorem State.answer_diag (r : Reply) : (s.answer r).diag = s.diag := rfl
@[simp] theorem State.answer_reply (r : Reply) : (s.answer r).reply = some r := rfl
@[simp] theorem State.answer_events (r : Reply) : (s.answer r).events = s.events := rfl

/-! recordFault -/

@[simp] theorem State.recordFault_life (r : FaultRecord) : (s.recordFault r).life = s.life := rfl
@[simp] theorem State.recordFault_armed (r : FaultRecord) : (s.recordFault r).armed = s.armed := rfl
@[simp] theorem State.recordFault_awaitAck (r : FaultRecord) : (s.recordFault r).awaitAck = s.awaitAck := rfl
@[simp] theorem State.recordFault_timing (r : FaultRecord) : (s.recordFault r).timing = s.timing := rfl
@[simp] theorem State.recordFault_lastRise (r : FaultRecord) : (s.recordFault r).lastRise = s.lastRise := rfl
@[simp] theorem State.recordFault_calls (r : FaultRecord) : (s.recordFault r).calls = s.calls := rfl
@[simp] theorem State.recordFault_chan (r : FaultRecord) : (s.recordFault r).chan = s.chan := rfl
@[simp] theorem State.recordFault_phase (r : FaultRecord) : (s.recordFault r).phase = s.phase := rfl
@[simp] theorem State.recordFault_bitIndex (r : FaultRecord) : (s.recordFault r).bitIndex = s.bitIndex := rfl
@[simp] theorem State.recordFault_frame (r : FaultRecord) : (s.recordFault r).frame = s.frame := rfl
@[simp] theorem State.recordFault_waitTicks (r : FaultRecord) : (s.recordFault r).waitTicks = s.waitTicks := rfl
@[simp] theorem State.recordFault_rdTemp (r : FaultRecord) : (s.recordFault r).rdTemp = s.rdTemp := rfl
@[simp] theorem State.recordFault_rdHum (r : FaultRecord) : (s.recordFault r).rdHum = s.rdHum := rfl
@[simp] theorem State.recordFault_rdStatus (r : FaultRecord) : (s.recordFault r).rdStatus = s.rdStatus := rfl
@[simp] theorem State.recordFault_rdInterval (r : FaultRecord) : (s.recordFault r).rdInterval = s.rdInterval := rfl
@[simp] theorem State.recordFault_fault (r : FaultRecord) : (s.recordFault r).fault = some r := rfl
@[simp] theorem State.recordFault_diag (r : FaultRecord) : (s.recordFault r).diag = s.diag := rfl
@[simp] theorem State.recordFault_reply (r : FaultRecord) : (s.recordFault r).reply = s.reply := rfl
@[simp] theorem State.recordFault_events (r : FaultRecord) : (s.recordFault r).events = s.events := rfl

/-! shiftIn -/

@[simp] theorem State.shiftIn_life (b : Bit) : (s.shiftIn b).life = s.life := rfl
@[simp] theorem State.shiftIn_armed (b : Bit) : (s.shiftIn b).armed = s.armed := rfl
@[simp] theorem State.shiftIn_awaitAck (b : Bit) : (s.shiftIn b).awaitAck = s.awaitAck := rfl
@[simp] theorem State.shiftIn_timing (b : Bit) : (s.shiftIn b).timing = s.timing := rfl
@[simp] theorem State.shiftIn_lastRise (b : Bit) : (s.shiftIn b).lastRise = s.lastRise := rfl
@[simp] theorem State.shiftIn_calls (b : Bit) : (s.shiftIn b).calls = s.calls := rfl
@[simp] theorem State.shiftIn_chan (b : Bit) : (s.shiftIn b).chan = s.chan := rfl
@[simp] theorem State.shiftIn_phase (b : Bit) : (s.shiftIn b).phase = phaseAfter (s.bitIndex + 1) s.phase := rfl
@[simp] theorem State.shiftIn_bitIndex (b : Bit) : (s.shiftIn b).bitIndex = s.bitIndex + 1 := rfl
@[simp] theorem State.shiftIn_frame (b : Bit) : (s.shiftIn b).frame = shiftFrame s.frame s.bitIndex b := rfl
@[simp] theorem State.shiftIn_waitTicks (b : Bit) : (s.shiftIn b).waitTicks = 0 := rfl
@[simp] theorem State.shiftIn_rdTemp (b : Bit) : (s.shiftIn b).rdTemp = s.rdTemp := rfl
@[simp] theorem State.shiftIn_rdHum (b : Bit) : (s.shiftIn b).rdHum = s.rdHum := rfl
@[simp] theorem State.shiftIn_rdStatus (b : Bit) : (s.shiftIn b).rdStatus = s.rdStatus := rfl
@[simp] theorem State.shiftIn_rdInterval (b : Bit) : (s.shiftIn b).rdInterval = s.rdInterval := rfl
@[simp] theorem State.shiftIn_fault (b : Bit) : (s.shiftIn b).fault = s.fault := rfl
@[simp] theorem State.shiftIn_diag (b : Bit) : (s.shiftIn b).diag = s.diag := rfl
@[simp] theorem State.shiftIn_reply (b : Bit) : (s.shiftIn b).reply = s.reply := rfl
@[simp] theorem State.shiftIn_events (b : Bit) : (s.shiftIn b).events = s.events := rfl

end Sys2Proof.Machine
end

