-- ==== Sys2Proof/Laws/Ops.lean ====
section
/-! SUPPORT. What each shared operation can do, said once: the guards of the meanings, the conditions, the channel
and the operations of the classifier, the assembler and the validator. -/

namespace Sys2Proof.Machine

/-! ### Guards -/

theorem whenLive_of_none {s : State} {k : Result} (h : s.fault = none) : whenLive s k = k := by
  simp [whenLive, h]

theorem whenLive_of_some {s : State} {k : Result} {r : FaultRecord} (h : s.fault = some r) :
    whenLive s k = .fault (.quiescent r) := by
  simp [whenLive, h]

/-- A guarded meaning goes on only while no fault is recorded, and then as the meaning does. -/
theorem whenLive_next {s s' : State} {k : Result} :
    whenLive s k = .next s' ↔ s.fault = none ∧ k = .next s' := by
  cases h : s.fault <;> simp [whenLive, h]

theorem whenLive_refused {s : State} {k : Result} {r : Refusal} :
    whenLive s k = .refused r ↔ s.fault = none ∧ k = .refused r := by
  cases h : s.fault <;> simp [whenLive, h]

theorem whenLive_fault {s : State} {k : Result} {r : Fault} :
    whenLive s k = .fault r ↔ (∃ q, s.fault = some q ∧ r = .quiescent q) ∨ (s.fault = none ∧ k = .fault r) := by
  cases h : s.fault <;> simp [whenLive, h, eq_comm]

/-- A cycle command goes on while setup has succeeded, and otherwise records NotRunning. -/
theorem whenRunning_next {code : Byte} {s s' : State} {k : Result} :
    whenRunning code s k = .next s' ↔
      (s.life = .running ∧ k = .next s') ∨ (s.life ≠ .running ∧ s' = s.recordFault (.notRunning code)) := by
  by_cases h : s.life = .running <;> simp [whenRunning, raiseFault, h, eq_comm]

/-- A cycle command goes on while no cycle runs, and otherwise records CycleOverlap. -/
theorem whenIdle_next {code : Byte} {s s' : State} {k : Result} :
    whenIdle code s k = .next s' ↔
      (s.phase = .idle ∧ k = .next s') ∨
      (s.phase ≠ .idle ∧ s' = s.recordFault (.cycleOverlap code s.phase s.bitIndex)) := by
  by_cases h : s.phase = .idle <;> simp [whenIdle, raiseFault, h, eq_comm]

/-- An internal step goes on only where it is enabled. -/
theorem whenEnabled_next {code : Byte} {ready : Bool} {s' : State} {k : Result} :
    whenEnabled code ready k = .next s' ↔ ready = true ∧ k = .next s' := by
  cases ready <;> simp [whenEnabled]

/-! ### Conditions -/

theorem recvReady_iff {s : State} : recvReady s = true ↔ s.phase = .receiving ∧ s.chan ≠ [] := by
  simp [recvReady]

theorem timeoutReady_iff {s : State} :
    timeoutReady s = true ↔ s.phase = .receiving ∧ s.chan = [] ∧ s.waitTicks = Config.deadlineTicks := by
  simp [timeoutReady, and_assoc]

theorem validateReady_iff {s : State} : validateReady s = true ↔ s.phase = .validating := by
  simp [validateReady]

theorem clockWentBack_iff {t : Micros} {s : State} :
    clockWentBack t s = true ↔ s.timing = true ∧ t.toNat < s.lastRise.toNat := by
  simp [clockWentBack, BitVec.lt_def]

theorem chanFull_iff {s : State} : chanFull s = true ↔ Config.chanCap ≤ s.chan.length := by
  simp [chanFull]

/-- Classify over naturals: the threshold is strict. -/
theorem classify_eq (e : Micros) : classify e = if 50 < e.toNat then 1 else 0 := by
  simp [classify, Config.thresholdUs, BitVec.lt_def]

/-- The elapsed time does not wrap while the clock keeps its duty (R104). -/
theorem toNat_elapsed {t : Micros} {s : State} (h : s.lastRise.toNat ≤ t.toNat) :
    (elapsed t s).toNat = t.toNat - s.lastRise.toNat :=
  BitVec.toNat_sub_of_le (BitVec.le_def.2 h)

/-! ### The channel -/

/-- A classified bit is queued where there is room, and nothing else is written. -/
theorem offerBit_eq (b : Bit) (s : State) :
    offerBit b s = { s with chan := if s.chan.length < Config.chanCap then s.chan ++ [b] else s.chan } := by
  by_cases h : s.chan.length < Config.chanCap <;> simp [offerBit, chanFull, State.chanPush, h]

/-- Offering a bit never overfills the channel. -/
theorem offerBit_length_le {b : Bit} {s : State} (h : s.chan.length ≤ Config.chanCap) :
    (offerBit b s).chan.length ≤ Config.chanCap := by
  rw [offerBit_eq]
  split
  · simpa using ‹s.chan.length < Config.chanCap›
  · exact h

/-- Popping never lengthens the channel. -/
theorem chanPop_length_le (s : State) : s.chanPop.chan.length ≤ s.chan.length := by
  simp

/-! ### Operations of the agents -/

/-- A classified falling edge writes the channel and nothing else. -/
theorem classifyEdge_frame (t : Micros) (s : State) :
    classifyEdge t s = { s with chan := (classifyEdge t s).chan } := by
  unfold classifyEdge
  split
  · simp [offerBit_eq]
  · rfl

/-- A delivered falling edge queues its bit when it is timed and there is room. -/
theorem classifyEdge_chan (t : Micros) (s : State) :
    (classifyEdge t s).chan =
      if s.timing = true ∧ s.chan.length < Config.chanCap then s.chan ++ [classify (elapsed t s)] else s.chan := by
  by_cases h : s.timing = true <;> by_cases h2 : s.chan.length < Config.chanCap <;>
    simp [classifyEdge, offerBit_eq, h, h2]

/-- A delivered rise writes `await_ack`, or `last_rise` and `timing`, and nothing else. -/
theorem acceptRise_eq (t : Micros) (s : State) :
    acceptRise t s =
      { s with
        awaitAck := false
        lastRise := if s.awaitAck then s.lastRise else t
        timing := if s.awaitAck then s.timing else true } := by
  cases s with
  | mk life armed awaitAck => cases awaitAck <;> rfl

theorem receiveBit_cons {s : State} {b : Bit} {rest : List Bit} (h : s.chan = b :: rest) :
    receiveBit s = s.chanPop.shiftIn b := by
  simp [receiveBit, h]

@[simp] theorem timeoutUnder_substituteZero (s : State) :
    timeoutUnder .substituteZero s = (s.emitDiag ⟨.timeout, s.bitIndex⟩).shiftIn 0 := rfl

@[simp] theorem timeoutUnder_abortInvalid (s : State) :
    timeoutUnder .abortInvalid s =
      (((s.emitDiag ⟨.timeout, s.bitIndex⟩).setStatus .invalid).setPhase .idle).clearTicks := rfl

theorem publishFrame_of_ok {s : State} (h : checksumOk s.frame = true) :
    publishFrame s = s.publish (humTenths s.frame) (tempTenths s.frame) := by
  simp [publishFrame, h]

theorem publishFrame_of_bad {s : State} (h : checksumOk s.frame = false) :
    publishFrame s = s.setStatus .checksumMismatch := by
  simp [publishFrame, h]

/-- Validation writes the humidity, the temperature and the status, and nothing else. -/
theorem publishFrame_frame (s : State) :
    publishFrame s =
      { s with
        rdHum := (publishFrame s).rdHum
        rdTemp := (publishFrame s).rdTemp
        rdStatus := (publishFrame s).rdStatus } := by
  by_cases h : checksumOk s.frame = true
  · simp [publishFrame, h, State.publish]
  · simp [publishFrame, h, State.setStatus]

/-- Reading a frame byte after writing one: the written byte, and every other byte as it was. -/
theorem frameByte_setFrameByte (f : Frame) (i j : Nat) (b : Byte) (h : i < Config.frameBytes) :
    frameByte (setFrameByte f i b) j = if i = j then b else frameByte f j := by
  have hi : i = 0 ∨ i = 1 ∨ i = 2 ∨ i = 3 ∨ i = 4 := by simp only [Config.frameBytes] at h; omega
  match j with
  | 0 | 1 | 2 | 3 | 4 | _ + 5 =>
    rcases hi with rfl | rfl | rfl | rfl | rfl <;> simp [frameByte, setFrameByte]

/-- The byte being filled doubles and takes the bit at its bottom. -/
theorem shiftFrame_eq (f : Frame) (k : Nat) (b : Bit) :
    shiftFrame f k b =
      setFrameByte f (k / 8) (BitVec.ofNat 8 (2 * (frameByte f (k / 8)).toNat + b.toNat)) := by
  have key : ∀ (x : Byte) (b : Bit), (x <<< 1) ||| b.setWidth 8 = BitVec.ofNat 8 (2 * x.toNat + b.toNat) := by
    decide
  rw [shiftFrame, key]
  rfl

/-- While fewer than 40 bits are accounted for, a bit leaves the phase alone. -/
theorem phaseAfter_of_ne {k : Nat} (p : Phase) (h : k ≠ Config.frameBits) : phaseAfter k p = p := by
  simp [phaseAfter, h]

/-- The 40th bit ends reception. -/
@[simp] theorem phaseAfter_frameBits (p : Phase) : phaseAfter Config.frameBits p = .validating := by
  simp [phaseAfter]

theorem phaseAfter_eq_validating {k : Nat} {p : Phase} :
    phaseAfter k p = .validating ↔ k = Config.frameBits ∨ p = .validating := by
  by_cases h : k = Config.frameBits <;> simp [phaseAfter, h]

theorem phaseAfter_eq_receiving {k : Nat} {p : Phase} :
    phaseAfter k p = .receiving ↔ k ≠ Config.frameBits ∧ p = .receiving := by
  by_cases h : k = Config.frameBits <;> simp [phaseAfter, h]

theorem phaseAfter_eq_idle {k : Nat} {p : Phase} :
    phaseAfter k p = .idle ↔ k ≠ Config.frameBits ∧ p = .idle := by
  by_cases h : k = Config.frameBits <;> simp [phaseAfter, h]

end Sys2Proof.Machine
end

