-- ==== Sys2Proof/Laws/Exec.lean ====
section
/-! SUPPORT. One inversion lemma per meaning: everything it can do when it answers a next state. Invariants and
frames over all events cite these instead of unfolding a meaning. -/

namespace Sys2Proof.Machine

variable {s s' : State}

theorem execInit_next {ok : Bool} :
    execInit ok s = .next s' ↔ s.fault = none ∧
      ((s.life = .running ∧ s' = s.recordFault (.doubleInit 0x01)) ∨
       (s.life ≠ .running ∧ ok = true ∧ s' = ((s.setLife .running).setArmed true).chanFlush) ∨
       (s.life ≠ .running ∧ ok = false ∧ s' = (s.setLife .failed).setArmed false)) := by
  rw [execInit, whenLive_next]
  by_cases h : s.life = .running <;> cases ok <;> simp [h, raiseFault, opcodeByte, eq_comm]

theorem execCycleReset_next :
    execCycleReset s = .next s' ↔ s.fault = none ∧
      ((s.life = .running ∧ s.phase = .idle ∧ s' = s.resetDecoder.chanFlush.clearAccumulator) ∨
       (s.life = .running ∧ s.phase ≠ .idle ∧ s' = s.recordFault (.cycleOverlap 0x02 s.phase s.bitIndex)) ∨
       (s.life ≠ .running ∧ s' = s.recordFault (.notRunning 0x02))) := by
  rw [execCycleReset, whenLive_next, whenRunning_next, whenIdle_next]
  simp only [opcodeByte, Host.Outcome.next.injEq, and_or_left, or_assoc, eq_comm (b := s')]

theorem execIrqDisarm_next :
    execIrqDisarm s = .next s' ↔ s.fault = none ∧
      ((s.life = .running ∧ s' = s.setArmed false) ∨
       (s.life ≠ .running ∧ s' = s.recordFault (.notRunning 0x03))) := by
  rw [execIrqDisarm, whenLive_next, whenRunning_next]
  simp only [opcodeByte, Host.Outcome.next.injEq, eq_comm (b := s')]

theorem execIrqArm_next :
    execIrqArm s = .next s' ↔ s.fault = none ∧
      ((s.life = .running ∧ s' = s.setArmed true) ∨
       (s.life ≠ .running ∧ s' = s.recordFault (.notRunning 0x04))) := by
  rw [execIrqArm, whenLive_next, whenRunning_next]
  simp only [opcodeByte, Host.Outcome.next.injEq, eq_comm (b := s')]

theorem execAsmStart_next :
    execAsmStart s = .next s' ↔ s.fault = none ∧
      ((s.life = .running ∧ s.phase = .idle ∧ s' = (s.setPhase .receiving).clearAccumulator) ∨
       (s.life = .running ∧ s.phase ≠ .idle ∧ s' = s.recordFault (.cycleOverlap 0x05 s.phase s.bitIndex)) ∨
       (s.life ≠ .running ∧ s' = s.recordFault (.notRunning 0x05))) := by
  rw [execAsmStart, whenLive_next, whenRunning_next, whenIdle_next]
  simp only [opcodeByte, Host.Outcome.next.injEq, and_or_left, or_assoc, eq_comm (b := s')]

theorem execRead_next :
    execRead s = .next s' ↔ s.fault = none ∧
      s' = s.answer (.record (replyW0 s) (replyW1 s) (replyW2 s)) := by
  rw [execRead, whenLive_next]
  simp only [Host.Outcome.next.injEq, eq_comm (b := s')]

theorem execReadDiag_next :
    execReadDiag s = .next s' ↔ s.fault = none ∧ s' = s.answer (.diag (replyD0 s)) := by
  rw [execReadDiag, whenLive_next]
  simp only [Host.Outcome.next.injEq, eq_comm (b := s')]

theorem execEdgeFall_next {t : Micros} :
    execEdgeFall t s = .next s' ↔ s.fault = none ∧
      ((s.armed = false ∧ s' = s) ∨
       (s.armed = true ∧ clockWentBack t s = false ∧ s' = classifyEdge t s.countCall)) := by
  rw [execEdgeFall, whenLive_next]
  cases s.armed <;> cases clockWentBack t s <;> simp [eq_comm]

/-- A falling edge is refused exactly where it is delivered, timed, and before the recorded rise (R104). -/
theorem execEdgeFall_refused {t : Micros} {r : Refusal} :
    execEdgeFall t s = .refused r ↔
      s.fault = none ∧ s.armed = true ∧ clockWentBack t s = true ∧ r = .nonMonotonicClock := by
  rw [execEdgeFall, whenLive_refused]
  cases s.armed <;> cases clockWentBack t s <;> simp [eq_comm]

theorem execEdgeRise_next {t : Micros} :
    execEdgeRise t s = .next s' ↔ s.fault = none ∧
      ((s.armed = false ∧ s' = s) ∨ (s.armed = true ∧ s' = acceptRise t s.countCall)) := by
  rw [execEdgeRise, whenLive_next]
  cases s.armed <;> simp [eq_comm]

theorem execTick_next :
    execTick s = .next s' ↔ s.fault = none ∧
      ((s.phase = .receiving ∧ s' = s.countTick) ∨ (s.phase ≠ .receiving ∧ s' = s)) := by
  rw [execTick, whenLive_next]
  by_cases h : s.phase = .receiving <;> simp [h, eq_comm]

theorem execAsmRecv_next :
    execAsmRecv s = .next s' ↔ s.fault = none ∧ s.phase = .receiving ∧
      ∃ b rest, s.chan = b :: rest ∧ s' = s.chanPop.shiftIn b := by
  rw [execAsmRecv, whenLive_next, whenEnabled_next, recvReady_iff]
  cases h : s.chan with
  | nil => simp
  | cons b rest => simp [receiveBit_cons h, eq_comm]

theorem execAsmTimeout_next :
    execAsmTimeout s = .next s' ↔ s.fault = none ∧ s.phase = .receiving ∧ s.chan = [] ∧
      s.waitTicks = Config.deadlineTicks ∧ s' = (s.emitDiag ⟨.timeout, s.bitIndex⟩).shiftIn 0 := by
  rw [execAsmTimeout, whenLive_next, whenEnabled_next, timeoutReady_iff]
  simp only [Config.timeoutPolicy, timeoutUnder_substituteZero, Host.Outcome.next.injEq, and_assoc,
    eq_comm (b := s')]

theorem execValidate_next :
    execValidate s = .next s' ↔ s.fault = none ∧ s.phase = .validating ∧
      s' = (publishFrame s).setPhase .idle := by
  rw [execValidate, whenLive_next, whenEnabled_next, validateReady_iff]
  simp only [Host.Outcome.next.injEq, eq_comm (b := s')]

/-- Every event goes on only from a state in which no fault is recorded (R14, R39). -/
theorem exec_next_live {i : Instr} (h : exec i s = .next s') : s.fault = none := by
  cases i <;> exact (whenLive_next.1 h).1

/-- Everything an event can do when it goes on: it records a fault and nothing else, or it has its own effect. -/
theorem exec_next_cases {i : Instr} (h : exec i s = .next s') :
    (∃ r, s' = s.recordFault r) ∨
    (i = .init true ∧ s.life ≠ .running ∧ s' = ((s.setLife .running).setArmed true).chanFlush) ∨
    (i = .init false ∧ s.life ≠ .running ∧ s' = (s.setLife .failed).setArmed false) ∨
    (i = .cycleReset ∧ s.life = .running ∧ s.phase = .idle ∧ s' = s.resetDecoder.chanFlush.clearAccumulator) ∨
    (i = .irqDisarm ∧ s.life = .running ∧ s' = s.setArmed false) ∨
    (i = .irqArm ∧ s.life = .running ∧ s' = s.setArmed true) ∨
    (i = .asmStart ∧ s.life = .running ∧ s.phase = .idle ∧
      s' = (s.setPhase .receiving).clearAccumulator) ∨
    (i = .read ∧ s' = s.answer (.record (replyW0 s) (replyW1 s) (replyW2 s))) ∨
    (i = .readDiag ∧ s' = s.answer (.diag (replyD0 s))) ∨
    (∃ t, i = .edgeFall t ∧ ((s.armed = false ∧ s' = s) ∨
      (s.armed = true ∧ clockWentBack t s = false ∧ s' = classifyEdge t s.countCall))) ∨
    (∃ t, i = .edgeRise t ∧ ((s.armed = false ∧ s' = s) ∨
      (s.armed = true ∧ s' = acceptRise t s.countCall))) ∨
    (i = .tick ∧ ((s.phase = .receiving ∧ s' = s.countTick) ∨ (s.phase ≠ .receiving ∧ s' = s))) ∨
    (i = .asmRecv ∧ s.phase = .receiving ∧ ∃ b rest, s.chan = b :: rest ∧ s' = s.chanPop.shiftIn b) ∨
    (i = .asmTimeout ∧ s.phase = .receiving ∧ s.chan = [] ∧ s.waitTicks = Config.deadlineTicks ∧
      s' = (s.emitDiag ⟨.timeout, s.bitIndex⟩).shiftIn 0) ∨
    (i = .validate ∧ s.phase = .validating ∧ s' = (publishFrame s).setPhase .idle) := by
  cases i with
  | init ok =>
    obtain ⟨-, ⟨-, h⟩ | ⟨hl, rfl, hs⟩ | ⟨hl, rfl, hs⟩⟩ := execInit_next.1 h
    · exact .inl ⟨_, h⟩
    · simp [hl, hs]
    · simp [hl, hs]
  | cycleReset =>
    obtain ⟨-, h | ⟨-, -, h⟩ | ⟨-, h⟩⟩ := execCycleReset_next.1 h
    · simp [h]
    · exact .inl ⟨_, h⟩
    · exact .inl ⟨_, h⟩
  | irqDisarm =>
    obtain ⟨-, h | ⟨-, h⟩⟩ := execIrqDisarm_next.1 h
    · simp [h]
    · exact .inl ⟨_, h⟩
  | irqArm =>
    obtain ⟨-, h | ⟨-, h⟩⟩ := execIrqArm_next.1 h
    · simp [h]
    · exact .inl ⟨_, h⟩
  | asmStart =>
    obtain ⟨-, h | ⟨-, -, h⟩ | ⟨-, h⟩⟩ := execAsmStart_next.1 h
    · simp [h]
    · exact .inl ⟨_, h⟩
    · exact .inl ⟨_, h⟩
  | read => simp [(execRead_next.1 h).2]
  | readDiag => simp [(execReadDiag_next.1 h).2]
  | edgeFall t => simpa using .inr (execEdgeFall_next.1 h).2
  | edgeRise t => simpa using .inr (execEdgeRise_next.1 h).2
  | tick => simpa using .inr (execTick_next.1 h).2
  | asmRecv =>
    obtain ⟨-, hp, b, rest, hc, hs⟩ := execAsmRecv_next.1 h
    simp [hp, hc, hs]
  | asmTimeout => simp [(execAsmTimeout_next.1 h).2]
  | validate => simp [(execValidate_next.1 h).2]

end Sys2Proof.Machine
end

