-- ==== Sys2Proof/Laws/PerInstr.lean ====
section
/-! SUPPORT. Per instruction, about its syntax: the record of an event is well-formed (R75, R76), its length is told
by its code byte alone (R75), and its code belongs to its own row of the opcode map (R78). -/

namespace Sys2Proof.Laws.RecordForm

/-- The form of an event's record. -/
def Statement (i : Instr) : Prop :=
  recordWellFormed (encode i) = true ∧ (encode i).length = recordLength (codeOf i) ∧
  opcodeOf (codeOf i) = some i.opcode

theorem init (ok : Bool) : Statement (.init ok) := by
  cases ok <;> exact ⟨rfl, rfl, opcodeOf_opcodeByte .init⟩

theorem cycleReset : Statement .cycleReset := ⟨rfl, rfl, opcodeOf_opcodeByte .cycleReset⟩
theorem irqDisarm : Statement .irqDisarm := ⟨rfl, rfl, opcodeOf_opcodeByte .irqDisarm⟩
theorem irqArm : Statement .irqArm := ⟨rfl, rfl, opcodeOf_opcodeByte .irqArm⟩
theorem asmStart : Statement .asmStart := ⟨rfl, rfl, opcodeOf_opcodeByte .asmStart⟩
theorem read : Statement .read := ⟨rfl, rfl, opcodeOf_opcodeByte .read⟩
theorem readDiag : Statement .readDiag := ⟨rfl, rfl, opcodeOf_opcodeByte .readDiag⟩
theorem edgeFall (t : Micros) : Statement (.edgeFall t) :=
  ⟨rfl, (by decide : 9 = recordLength (opcodeByte .edgeFall)), opcodeOf_opcodeByte .edgeFall⟩
theorem edgeRise (t : Micros) : Statement (.edgeRise t) :=
  ⟨rfl, (by decide : 9 = recordLength (opcodeByte .edgeRise)), opcodeOf_opcodeByte .edgeRise⟩
theorem tick : Statement .tick := ⟨rfl, rfl, opcodeOf_opcodeByte .tick⟩
theorem asmRecv : Statement .asmRecv := ⟨rfl, rfl, opcodeOf_opcodeByte .asmRecv⟩
theorem asmTimeout : Statement .asmTimeout := ⟨rfl, rfl, opcodeOf_opcodeByte .asmTimeout⟩
theorem validate : Statement .validate := ⟨rfl, rfl, opcodeOf_opcodeByte .validate⟩

end Sys2Proof.Laws.RecordForm
end

