-- ==== Sys2Proof/Laws/Trace.lean ====
section
/-! SUPPORT. Traces: their first event, their parts, and the induction every claim over a trace uses. -/

namespace Sys2Proof.Machine

theorem runTrace_cons_next {i : Instr} {is : List Instr} {s s' : State} (h : exec i s = .next s') :
    runTrace (i :: is) s = runTrace is s' := by
  simp [runTrace, h]

theorem accountedBits_cons_next {i : Instr} {is : List Instr} {s s' : State} (h : exec i s = .next s') :
    accountedBits (i :: is) s = accountedBit i s ++ accountedBits is s' := by
  simp [accountedBits, h]

/-- A trace of one event and more goes through the event's next state. -/
theorem runTrace_cons {i : Instr} {is : List Instr} {s s' : State} :
    runTrace (i :: is) s = .next s' ↔ ∃ s₁, exec i s = .next s₁ ∧ runTrace is s₁ = .next s' := by
  simp only [runTrace]
  cases exec i s <;> simp

/-- A trace that runs to its end runs its parts one after the other. -/
theorem runTrace_append {xs ys : List Instr} {s s' : State} (h : runTrace xs s = .next s') :
    runTrace (xs ++ ys) s = runTrace ys s' := by
  induction xs generalizing s with
  | nil => cases h; rfl
  | cons i xs ih =>
    obtain ⟨s₁, hi, h⟩ := runTrace_cons.1 h
    rw [List.cons_append, runTrace_cons_next hi, ih h]

/-- What every event of a trace keeps, the trace keeps. -/
theorem runTrace_keeps {P : State → Prop} {is : List Instr} {s s' : State}
    (step : ∀ i ∈ is, ∀ s s', P s → exec i s = .next s' → P s') (hs : P s) (h : runTrace is s = .next s') :
    P s' := by
  induction is generalizing s with
  | nil => cases h; exact hs
  | cons i is ih =>
    obtain ⟨s₁, hi, h⟩ := runTrace_cons.1 h
    exact ih (fun j hj => step j (by simp [hj])) (step i (by simp) s s₁ hs hi) h

end Sys2Proof.Machine
end

