-- ==== Sys2Proof/Tests/Slice0.lean ====
section
/-! SUPPORT. Tests of the model against spec/95_test_vectors.md and the encoding tables of spec/30_encoding.md, and
for each statement with hypotheses a witness that meets them, at the boundaries of its clauses. -/

namespace Sys2Proof.Tests

open Sys2Proof.Machine Sys2Proof.Safety

/-! ### Helpers -/

/-- The next state of an outcome, if it has one. -/
def nextOf : Result → Option State
  | .next s => some s
  | .fault _ => none
  | .refused _ => none

theorem next_of {o : Result} {s : State} (h : nextOf o = some s) : o = .next s := by
  cases o <;> simp [nextOf] at h; rw [h]

/-- The fault of an outcome, if it has one. -/
def faultOf : Result → Option Fault
  | .next _ => none
  | .fault r => some r
  | .refused _ => none

/-- The refusal of an outcome, if it has one. -/
def refusalOf : Result → Option Refusal
  | .next _ => none
  | .fault _ => none
  | .refused r => some r

/-- RUNNING, IDLE, armed, the acknowledgement awaited. -/
def ready : State := { State.reset with life := .running, armed := true }

/-- The start of the vectors V11 to V17. -/
def timed : State := { ready with awaitAck := false, timing := true, lastRise := 1000, calls := 5 }

/-- `timed` with a full channel (V24). -/
def full : State := { timed with chan := List.replicate 40 1 }

/-- A cycle that has just started (V27). -/
def receiving : State := { ready with phase := .receiving }

/-- A cycle with all bits accounted for. -/
def validating (f : Frame) : State :=
  { ready with phase := .validating, bitIndex := 40, frame := f, rdHum := 111, rdTemp := -22, rdStatus := .valid }

/-- A recorded fault (V55). -/
def faulted : State := { State.reset with fault := some (.notRunning 0x02) }

/-! ### Encoding: records written out from R71 and R75 (vectors V1 to V10) -/

theorem test_decode_host :
    decode [0x01, 0x01] = .record (.init true) [] ∧ decode [0x01, 0x00] = .record (.init false) [] ∧
    decode [0x02] = .record .cycleReset [] ∧ decode [0x03] = .record .irqDisarm [] ∧
    decode [0x04] = .record .irqArm [] ∧ decode [0x05] = .record .asmStart [] ∧
    decode [0x06] = .record .read [] ∧ decode [0x07] = .record .readDiag [] := by decide

theorem test_decode_edge :
    decode [0x10, 0, 0, 0, 0, 0, 0, 0x27, 0xFE] = .record (.edgeFall 10238) [] ∧
    decode [0x11, 0, 0, 0, 0, 0, 0, 0x27, 0xE2] = .record (.edgeRise 10210) [] ∧
    decode [0x11, 0xFF, 0xFF, 0xFF, 0xFF, 0xFF, 0xFF, 0xFF, 0xFF, 0x20] =
      .record (.edgeRise 18446744073709551615) [0x20] ∧
    decode [0x10, 0x01, 0x02, 0x03, 0x04, 0x05, 0x06, 0x07, 0x08] = .record (.edgeFall 0x0102030405060708) [] := by
  decide

theorem test_decode_timer_and_internal :
    decode [0x20] = .record .tick [] ∧ decode [0x30] = .record .asmRecv [] ∧
    decode [0x31] = .record .asmTimeout [] ∧ decode [0x32] = .record .validate [] := by decide

theorem test_decode_reserved :
    decode [0x01, 0x02] = .reserved 0x02 ∧
    ∀ c ∈ ([0x00, 0x08, 0x0F, 0x12, 0x1F, 0x21, 0x2F, 0x33, 0x3F, 0x40, 0x80, 0xFF] : List Byte),
      decode [c, 0x01] = .reserved c := by decide

theorem test_decode_truncated :
    decode [0x10, 0, 0, 0, 0, 0, 0, 0x27] = .noRecord ∧ decode [0x01] = .noRecord ∧ decode [] = .noRecord := by decide

theorem test_wellFormed_refuses_reserved_code : recordWellFormed [0x08] = false := by decide
theorem test_wellFormed_refuses_reserved_operand : recordWellFormed [0x01, 0x02] = false := by decide
theorem test_wellFormed_refuses_wrong_length :
    recordWellFormed [0x10, 0, 0, 0, 0, 0, 0, 0x27] = false ∧ recordWellFormed [0x20, 0x20] = false ∧
    recordWellFormed [] = false := by decide
theorem test_wellFormed_accepts : recordWellFormed [0x01, 0x00] = true ∧ recordWellFormed (encode (.edgeRise 7)) = true := by
  decide

theorem test_table_words :
    decodeTableWord 8 0x01 = some (.init false) ∧ decodeTableWord 8 0x11 = some (.edgeRise 0) ∧
    decodeTableWord 8 0x32 = some .validate ∧ decodeTableWord 8 0x08 = none ∧
    decodeTableWord 16 0x0101 = some (.init true) := by decide

theorem test_placed_word_is_next :
    (State.reset.withFetchWord 8 0x10).events = [0x10, 0, 0, 0, 0, 0, 0, 0, 0] ∧
    nextOf (step (State.reset.withFetchWord 8 0x01)) = some { State.reset with life := .failed } := by decide

theorem test_trace_text :
    readLine "init ok ; setup".toList = some [.init true] ∧ readLine "fall @10238".toList = some [.edgeFall 10238] ∧
    readLine "read_diag".toList = some [.readDiag] ∧ readLine "; a comment".toList = some [] ∧
    readLine "fall 10238".toList = none ∧ showEvent (.edgeRise 10210) = "rise @10210".toList := by decide

theorem test_trace_macros :
    readLine "tick*3".toList = some [.tick, .tick, .tick] ∧
    readLine "pulse @1000, 70".toList = some [.edgeRise 1000, .edgeFall 1070] ∧
    readLine "cycle".toList = some [.irqDisarm, .cycleReset, .irqArm, .asmStart] := by decide

/-! ### Control (vectors V51 to V63) -/

theorem test_init_ok_and_fail :
    nextOf (exec (.init true) State.reset) = some { State.reset with life := .running, armed := true } ∧
    nextOf (exec (.init false) State.reset) = some { State.reset with life := .failed } := by decide

theorem test_init_twice_faults :
    (nextOf (exec (.init true) ready)).map State.fault = some (some (.doubleInit 0x01)) := by decide

theorem test_cycleReset_flushes :
    (nextOf (exec .cycleReset { timed with chan := [0, 1, 1, 0], bitIndex := 40 })).map
      (fun s => (s.chan, s.calls, s.awaitAck, s.timing, s.bitIndex)) = some ([], 0, true, false, 0) := by decide

theorem test_cycleReset_overlap_faults :
    (nextOf (exec .cycleReset (validating Frame.zero))).map State.fault =
      some (some (.cycleOverlap 0x02 .validating 40)) := by decide

theorem test_irqDisarm_while_receiving :
    (nextOf (exec .irqDisarm receiving)).map (fun s => (s.armed, s.fault)) = some (false, none) := by decide

theorem test_irqArm_after_failure_faults :
    (nextOf (exec .irqArm { State.reset with life := .failed })).map State.fault =
      some (some (.notRunning 0x04)) := by decide

/-! ### Classifier (vectors V11 to V25, example E2) -/

theorem test_edgeFall_threshold :
    (nextOf (exec (.edgeFall 1050) timed)).map (fun s => (s.chan, s.calls)) = some ([0], 6) ∧
    (nextOf (exec (.edgeFall 1051) timed)).map (fun s => (s.chan, s.calls)) = some ([1], 6) := by decide

theorem test_edgeFall_clock_and_capacity :
    refusalOf (exec (.edgeFall 999) timed) = some .nonMonotonicClock ∧
    (nextOf (exec (.edgeFall 1070) full)).map (fun s => (s.chan.length, s.calls)) = some (40, 6) := by decide

theorem test_edgeRise_acknowledgement :
    (nextOf (exec (.edgeRise 500) ready)).map (fun s => (s.awaitAck, s.timing, s.lastRise, s.calls)) =
      some (false, false, 0, 1) := by decide

theorem test_edgeRise_records_and_wraps :
    (nextOf (exec (.edgeRise 500) timed)).map (fun s => (s.lastRise, s.calls, s.chan)) = some (500, 6, []) ∧
    (nextOf (exec (.edgeRise 1) { timed with calls := 4294967295 })).map State.calls = some 0 := by decide

/-! ### Accumulator (vectors V27 to V38) -/

theorem test_asmStart :
    (nextOf (exec .asmStart { ready with bitIndex := 40, frame := ⟨2, 0x8C, 1, 0x5D, 0xEC⟩, chan := [1] })).map
      (fun s => (s.phase, s.bitIndex, s.frame, s.chan)) = some (.receiving, 0, Frame.zero, [1]) := by decide

theorem test_asmStart_overlap_faults :
    (nextOf (exec .asmStart receiving)).map State.fault = some (some (.cycleOverlap 0x05 .receiving 0)) := by decide

theorem test_tick_saturates :
    (nextOf (exec .tick { receiving with waitTicks := 499 })).map State.waitTicks = some 500 ∧
    (nextOf (exec .tick { receiving with waitTicks := 500 })).map State.waitTicks = some 500 ∧
    nextOf (exec .tick ready) = some ready := by decide

theorem test_asmRecv_shifts_msb_first :
    (nextOf (exec .asmRecv
      { receiving with bitIndex := 3, frame := ⟨5, 0, 0, 0, 0⟩, waitTicks := 321, chan := [1] })).map
      (fun s => (s.frame.b0, s.bitIndex, s.waitTicks, s.chan)) = some (0x0B, 4, 0, []) := by decide

theorem test_asmRecv_last_bit :
    (nextOf (exec .asmRecv { receiving with bitIndex := 39, frame := ⟨0, 0, 0, 0, 0x76⟩, chan := [0] })).map
      (fun s => (s.frame.b4, s.bitIndex, s.phase)) = some (0xEC, 40, .validating) := by decide

theorem test_asmTimeout_substitutes_zero :
    (nextOf (exec .asmTimeout
      { receiving with bitIndex := 39, frame := ⟨2, 0x8C, 1, 0x5D, 0x76⟩, waitTicks := 500 })).map
      (fun s => (s.frame.b4, s.phase, s.diag)) = some (0xEC, .validating, [⟨.timeout, 39⟩]) := by decide

theorem test_asmTimeout_needs_empty_channel_and_deadline :
    faultOf (exec .asmTimeout { receiving with waitTicks := 500, chan := [0] }) = some (.notEnabled 0x31) ∧
    faultOf (exec .asmTimeout { receiving with waitTicks := 499 }) = some (.notEnabled 0x31) := by decide

theorem test_abort_policy :
    (fun s => (s.rdStatus, s.phase, s.waitTicks, s.frame, s.bitIndex))
      (timeoutUnder .abortInvalid { receiving with waitTicks := 500, rdStatus := .valid, bitIndex := 7 }) =
      (.invalid, .idle, 0, Frame.zero, 7) := by decide

/-! ### Validator and reads (vectors V40 to V50) -/

theorem test_validate_signs :
    (nextOf (exec .validate (validating ⟨2, 0x8C, 0x81, 0x5D, 0x6C⟩))).map
      (fun s => (s.rdHum, s.rdTemp.toInt, s.rdStatus, s.phase)) = some (652, -349, .valid, .idle) ∧
    (nextOf (exec .validate (validating ⟨0, 0, 0xFF, 0xFF, 0xFE⟩))).map (fun s => s.rdTemp.toInt) = some (-32767) ∧
    (nextOf (exec .validate (validating ⟨0, 0, 0x80, 0, 0x80⟩))).map (fun s => s.rdTemp.toInt) = some 0 := by decide

theorem test_validate_mismatch_keeps_the_reading :
    (nextOf (exec .validate (validating ⟨2, 0x8C, 1, 0x5D, 0xF4⟩))).map
      (fun s => (s.rdHum, s.rdTemp.toInt, s.rdStatus)) = some (111, -22, .checksumMismatch) := by decide

theorem test_read_packs :
    (nextOf (exec .read { ready with rdHum := 652, rdTemp := -349, rdStatus := .valid })).map State.reply =
      some (some (.record 0x028CFEA3 1 10000)) ∧
    (nextOf (exec .read State.reset)).map State.reply = some (some (.record 0 0 10000)) := by decide

theorem test_readDiag : (nextOf (exec .readDiag { ready with calls := 84 })).map State.reply = some (some (.diag 84)) := by
  decide

/-! ### Witnesses: the hypotheses of the statements can be met -/

theorem witness_EncodeOfDecode : decode [0x01, 0x00, 0x20] = .record (.init false) [0x20] := by decide

theorem witness_TruncatedRecordIsNoEvent :
    encode (.edgeFall 39) = [0x10, 0, 0, 0, 0, 0, 0, 0] ++ [0x27] ∧ ([0x27] : List Byte) ≠ [] := by decide

theorem witness_ReservedCodesAreRefused :
    faulted.fault ≠ none ∧ ({ ready with events := [0x08, 0x20] } : State).fault = none ∧
    (∀ c ∈ ([0x00, 0x08, 0x0F, 0x12, 0x1F, 0x21, 0x2F, 0x33, 0x3F, 0x40, 0xFF] : List Byte),
      c ∉ ([0x01, 0x02, 0x03, 0x04, 0x05, 0x06, 0x07, 0x10, 0x11, 0x20, 0x30, 0x31, 0x32] : List Byte)) ∧
    (0x02 : Byte) ≠ 0x00 ∧ (0x02 : Byte) ≠ 0x01 ∧ (0xFF : Byte) ≠ 0x00 ∧ (0xFF : Byte) ≠ 0x01 := by decide

theorem witness_PseudoEventExpansions : 18446744073709551600 + 15 < 2 ^ 64 ∧ 0 + 0 < 2 ^ 64 := by decide

theorem witness_StepRunsTheNextEvent :
    ({ ready with events := [0x20, 0x31] } : State).fault = none ∧ decode [0x20, 0x31] = .record .tick [0x31] := by decide

theorem witness_StepWithNothingOffered :
    ready.fault = none ∧ decode ready.events = .noRecord ∧ decode [0x10, 0] = .noRecord ∧
    enabled .asmRecv { receiving with chan := [1] } = true ∧
    enabled .asmTimeout { receiving with waitTicks := 500 } = true ∧
    enabled .validate (validating Frame.zero) = true ∧
    (∀ i ∈ [Instr.asmRecv, .asmTimeout, .validate], enabled i { receiving with waitTicks := 499 } = false) := by decide

theorem witness_ThresholdDecidesTheBit :
    timed.fault = none ∧ timed.armed = true ∧ timed.timing = true ∧
    timed.lastRise.toNat ≤ (1000 : Micros).toNat ∧ timed.lastRise.toNat ≤ (1050 : Micros).toNat ∧
    timed.lastRise.toNat ≤ (1051 : Micros).toNat ∧ timed.chan.length < 40 ∧ full.chan.tail.length < 40 := by decide

theorem witness_EdgeFallFollowsItsRule :
    State.reset.fault = none ∧ State.reset.armed = false ∧
    timed.fault = none ∧ timed.armed = true ∧ timed.timing = true ∧ (999 : Micros).toNat < timed.lastRise.toNat ∧
    timed.lastRise.toNat ≤ (1000 : Micros).toNat ∧ timed.chan.length < 40 ∧ full.chan.tail.length < 40 ∧
    ready.fault = none ∧ ready.armed = true ∧ ready.timing = false ∧
    full.fault = none ∧ full.armed = true ∧ full.timing = true ∧ 40 ≤ full.chan.length := by decide

theorem witness_EdgeRiseFollowsItsRule :
    State.reset.fault = none ∧ State.reset.armed = false ∧ ready.fault = none ∧ ready.armed = true ∧
    ready.awaitAck = true ∧ timed.fault = none ∧ timed.armed = true ∧ timed.awaitAck = false := by decide

theorem witness_EdgeKeepsTheWorkersState :
    (Instr.edgeFall 1070).opcode.eventClass = .edge ∧
    exec (.edgeFall 1070) timed = .next { timed with calls := 6, chan := [1] } ∧
    (Instr.edgeRise 1070).opcode.eventClass = .edge ∧
    exec (.edgeRise 1070) timed = .next { timed with calls := 6, lastRise := 1070 } :=
  ⟨rfl, next_of (by decide), rfl, next_of (by decide)⟩

theorem witness_EveryDeliveredEdgeIsCounted :
    (Instr.edgeRise 1).opcode.eventClass = .edge ∧
    exec (.edgeRise 1) { timed with calls := 4294967295 } = .next { timed with calls := 0, lastRise := 1 } ∧
    exec (.edgeRise 1) State.reset = .next State.reset :=
  ⟨rfl, next_of (by decide), next_of (by decide)⟩

theorem witness_FallingEdgeKeepsTiming :
    exec (.edgeFall 1050) timed = .next { timed with calls := 6, chan := [0] } ∧
    exec (.edgeFall 1050) full = .next { full with calls := 6 } ∧
    exec (.edgeFall 1050) ready = .next { ready with calls := 1 } :=
  ⟨next_of (by decide), next_of (by decide), next_of (by decide)⟩

theorem witness_ReplyOfBitsIsClassified :
    ready.fault = none ∧ ready.armed = true ∧ ready.awaitAck = true ∧ ready.timing = false ∧
    (∀ p ∈ ([(10210, 10238), (10288, 10358), (10400, 10400)] : List (Micros × Micros)), p.1.toNat ≤ p.2.toNat) ∧
    ready.chan.length + 40 ≤ 40 :=
  ⟨rfl, rfl, rfl, rfl, by simp, by decide⟩

theorem witness_AsmStartFollowsItsRule :
    State.reset.fault = none ∧ State.reset.life ≠ .running ∧ receiving.fault = none ∧ receiving.life = .running ∧
    receiving.phase ≠ .idle ∧ ready.fault = none ∧ ready.life = .running ∧ ready.phase = .idle := by decide

theorem witness_TickFollowsItsRule :
    receiving.fault = none ∧ receiving.phase = .receiving ∧ ready.fault = none ∧ ready.phase ≠ .receiving := by decide

theorem witness_AsmRecvFollowsItsRule :
    ({ receiving with bitIndex := 39, chan := [0] } : State).phase = .receiving ∧ receiving.fault = none ∧
    ({ receiving with bitIndex := 39, chan := [0] } : State).chan = 0 :: [] ∧
    ready.phase ≠ .receiving ∧ receiving.chan = [] := by decide

theorem witness_AsmTimeoutFollowsItsRule :
    ({ receiving with bitIndex := 39, waitTicks := 500 } : State).phase = .receiving ∧ receiving.fault = none ∧
    receiving.chan = [] ∧ ({ receiving with waitTicks := 499 } : State).waitTicks ≠ 500 := by decide

theorem witness_AbortPolicyEndsTheCycle :
    Invariants { receiving with waitTicks := 500 } ∧ receiving.phase = .receiving := by decide

theorem witness_OwnStepsExcludeEachOther :
    Instr.asmRecv.opcode.eventClass = .internal ∧ enabled .asmRecv { receiving with chan := [1] } = true ∧
    Instr.validate.opcode.eventClass = .internal ∧ enabled .validate (validating Frame.zero) = true := by decide

theorem witness_MsbFirstExample :
    receiving.fault = none ∧ receiving.phase = .receiving ∧ receiving.bitIndex = 0 ∧ receiving.frame.b0 = 0 ∧
    ({ receiving with chan := [1, 0, 1, 0, 1, 0, 1, 0, 1] } : State).chan = [1, 0, 1, 0, 1, 0, 1, 0] ++ [1] := by decide

/-- A cycle with a substituted bit, then seven edges classified and received one by one. -/
def mixedCycle : List Instr := .asmTimeout :: (List.replicate 7 [Instr.edgeFall 1070, .asmRecv]).flatten

theorem witness_BitsLandMsbFirst_mixed :
    Instr.asmStart ∉ mixedCycle ∧ Instr.cycleReset ∉ mixedCycle ∧
    runTrace mixedCycle { timed with phase := .receiving, waitTicks := 500 } =
      .next { timed with
        phase := .receiving, bitIndex := 8, frame := ⟨0x7F, 0, 0, 0, 0⟩, calls := 12, diag := [⟨.timeout, 0⟩] } ∧
    accountedBits mixedCycle { timed with phase := .receiving, waitTicks := 500 } = [0, 1, 1, 1, 1, 1, 1, 1] :=
  ⟨by decide, by decide, rfl, rfl⟩

theorem witness_BitsLandMsbFirst :
    receiving.fault = none ∧ receiving.phase = .receiving ∧ receiving.bitIndex = 0 ∧
    ({ receiving with chan := List.replicate 40 1 ++ [0] } : State).chan = List.replicate 40 1 ++ [0] ∧
    (List.replicate 40 (1 : Bit)).length = 40 := by decide

theorem witness_SilentCycleTimesOutFortyTimes :
    receiving.fault = none ∧ receiving.phase = .receiving ∧ receiving.bitIndex = 0 ∧ receiving.waitTicks = 0 ∧
    receiving.chan = [] := by decide

theorem witness_CycleNeverStuck :
    Invariants receiving ∧ receiving.fault = none ∧ receiving.phase ≠ .idle ∧
    Invariants { receiving with waitTicks := 500 } ∧ Invariants (validating Frame.zero) ∧
    (validating Frame.zero).phase ≠ .idle := by decide

theorem witness_ValidateFollowsItsRule :
    (validating ⟨2, 0x8C, 1, 0x5D, 0xEC⟩).fault = none ∧ (validating ⟨2, 0x8C, 1, 0x5D, 0xEC⟩).phase = .validating ∧
    (0xEC : Byte).toNat = ((2 : Byte).toNat + (0x8C : Byte).toNat + (1 : Byte).toNat + (0x5D : Byte).toNat) % 256 ∧
    (0xFC : Byte).toNat =
      ((0xFF : Byte).toNat + (0xFF : Byte).toNat + (0xFF : Byte).toNat + (0xFF : Byte).toNat) % 256 ∧
    (0xF4 : Byte).toNat ≠ ((2 : Byte).toNat + (0x8C : Byte).toNat + (1 : Byte).toNat + (0x5D : Byte).toNat) % 256 ∧
    ready.phase ≠ .validating := by decide

theorem witness_OnlyTheSumByteIsValid :
    (validating ⟨2, 0x8C, 1, 0x5D, 0xED⟩).fault = none ∧ (validating ⟨2, 0x8C, 1, 0x5D, 0xED⟩).phase = .validating ∧
    (validating ⟨2, 0x8C, 1, 0x5D, 0xED⟩).frame = ⟨2, 0x8C, 1, 0x5D, 0xED⟩ := by decide

theorem witness_SignBitNegatesTheTemperature :
    (validating ⟨2, 0x8C, 1, 0x5D, 0xEC⟩).fault = none ∧ (validating ⟨2, 0x8C, 1, 0x5D, 0xEC⟩).phase = .validating ∧
    (1 : Byte).getLsbD 7 = false ∧
    exec .validate (validating ⟨2, 0x8C, 1, 0x5D, 0xEC⟩) =
      .next { validating ⟨2, 0x8C, 1, 0x5D, 0xEC⟩ with rdHum := 652, rdTemp := 349, phase := .idle } :=
  ⟨rfl, rfl, by decide, next_of (by decide)⟩

theorem witness_ValidationReadsOnlyTheFrame :
    (validating Frame.zero).frame = ({ validating Frame.zero with calls := 9, armed := false } : State).frame ∧
    exec .validate (validating Frame.zero) =
      .next { validating Frame.zero with rdHum := 0, rdTemp := 0, phase := .idle } ∧
    exec .validate { validating Frame.zero with calls := 9, armed := false } =
      .next { validating Frame.zero with calls := 9, armed := false, rdHum := 0, rdTemp := 0, phase := .idle } :=
  ⟨rfl, next_of (by decide), next_of (by decide)⟩

theorem witness_ReadFollowsItsRule :
    State.reset.fault = none ∧ (validating Frame.zero).fault = none ∧
    ({ State.reset with life := .failed } : State).fault = none := by decide

theorem witness_ReadDiagFollowsItsRule : State.reset.fault = none ∧ timed.fault = none := by decide

theorem witness_ReplyLayout :
    exec .read ready = .next { ready with reply := some (.record 0 0 10000) } ∧
    exec .tick ready = .next ready ∧ Instr.tick ≠ .read ∧ Instr.tick ≠ .readDiag :=
  ⟨next_of (by decide), next_of (by decide), by decide, by decide⟩

theorem witness_InitFollowsItsRule :
    ready.fault = none ∧ ready.life = .running ∧ State.reset.fault = none ∧ State.reset.life ≠ .running ∧
    ({ State.reset with life := .failed } : State).life ≠ .running := by decide

theorem witness_CycleResetFollowsItsRule :
    State.reset.fault = none ∧ State.reset.life ≠ .running ∧ receiving.fault = none ∧ receiving.life = .running ∧
    receiving.phase ≠ .idle ∧ timed.fault = none ∧ timed.life = .running ∧ timed.phase = .idle := by decide

theorem witness_ArmAndDisarmFollowTheirRules :
    State.reset.fault = none ∧ State.reset.life ≠ .running ∧ receiving.fault = none ∧ receiving.life = .running := by
  decide

theorem witness_RepeatedCommandsAreIdempotent :
    Instr.irqDisarm ∈ [Instr.cycleReset, .irqDisarm, .irqArm] ∧
    exec .irqDisarm ready = .next { ready with armed := false } ∧ ({ ready with armed := false } : State).fault = none :=
  ⟨by decide, next_of (by decide), rfl⟩

theorem witness_CycleResetForgetsTheLastCycle :
    timed.phase = .idle ∧ ready.phase = .idle ∧ timed.life = .running ∧
    timed = { ready with
      awaitAck := timed.awaitAck, timing := timed.timing, lastRise := timed.lastRise, calls := timed.calls
      chan := timed.chan, bitIndex := timed.bitIndex, frame := timed.frame, waitTicks := timed.waitTicks } := by decide

theorem witness_DisarmedEdgesChangeNothing :
    exec .irqDisarm ready = .next { ready with armed := false } ∧
    Instr.irqArm ∉ [Instr.edgeFall 5, .asmStart, .tick] ∧
    runTrace [.edgeFall 5, .asmStart, .tick] { ready with armed := false } =
      .next { receiving with armed := false, waitTicks := 1 } ∧
    ({ receiving with armed := false, waitTicks := 1 } : State).fault = none :=
  ⟨next_of (by decide), by decide, next_of (by decide), rfl⟩

theorem witness_ResetHoldsUntilArmed :
    ({ timed with armed := false } : State).armed = false ∧
    exec .cycleReset { timed with armed := false } = .next { ready with armed := false } ∧
    ({ ready with armed := false } : State).fault = none ∧ Instr.irqArm ∉ [Instr.edgeRise 5, .tick] ∧
    runTrace [.edgeRise 5, .tick] { ready with armed := false } = .next { ready with armed := false } :=
  ⟨rfl, next_of (by decide), rfl, by decide, next_of (by decide)⟩

theorem witness_FaultedStateIsQuiescent : faulted.fault = some (.notRunning 0x02) := by decide

theorem witness_FaultWritesOnlyItsRecord :
    exec .cycleReset State.reset = .next faulted ∧ faulted.fault ≠ none :=
  ⟨next_of (by decide), by decide⟩

theorem witness_UnadmittedCommandsFault :
    ready.fault = none ∧ admitted (.init true) ready = false ∧ State.reset.fault = none ∧
    admitted .cycleReset State.reset = false ∧ admitted .irqArm State.reset = false ∧
    receiving.fault = none ∧ admitted .asmStart receiving = false := by decide

theorem witness_AdmittedEventsGoOn :
    enabled (.edgeFall 1000) timed = true ∧ admitted (.edgeFall 1000) timed = true ∧
    clockDuty (.edgeFall 1000) timed = true ∧ clockDuty (.edgeFall 999) timed = false ∧
    enabled .asmStart ready = true ∧ admitted .asmStart ready = true ∧ clockDuty .asmStart ready = true := by decide

theorem witness_NoStepExactlyWhereNotEnabled :
    enabled .asmRecv receiving = false ∧ enabled .tick faulted = false ∧ enabled .tick receiving = true := by decide

theorem witness_RefusalsAreTheTwoOfTheSpec :
    refusalOf (exec (.edgeFall 999) timed) = some .nonMonotonicClock ∧
    refusalOf (step { timed with events := [0x10, 0, 0, 0, 0, 0, 0, 0x03, 0xE7] }) = some .nonMonotonicClock ∧
    refusalOf (step { ready with events := [0x08] }) = some (.reservedCode 0x08) ∧
    refusalOf (step { ready with events := [0x01, 0x02] }) = some (.reservedCode 0x02) := by decide

theorem witness_FieldsAreWrittenByTheirEvents :
    exec .tick receiving = .next { receiving with waitTicks := 1 } ∧
    Instr.tick.opcode ∉ [Opcode.validate] ∧ Instr.tick.opcode ∉ [Opcode.init, .irqArm, .irqDisarm] :=
  ⟨next_of (by decide), by decide, by decide⟩

theorem witness_BitIndexNeverWraps :
    Invariants { receiving with bitIndex := 39, chan := [0] } ∧
    (nextOf (exec .asmRecv { receiving with bitIndex := 39, chan := [0] })).map (fun s => (s.bitIndex, s.fault)) =
      some (40, none) ∧
    Invariants ready ∧ (nextOf (exec .asmStart ready)).map (fun s => (s.bitIndex, s.fault)) = some (0, none) ∧
    Invariants (validating Frame.zero) ∧
    (nextOf (exec .validate (validating Frame.zero))).map (fun s => (s.bitIndex, s.fault)) = some (40, none) := by decide

theorem witness_OnlyValidateEndsACycle :
    exec .validate (validating Frame.zero) =
      .next { validating Frame.zero with rdHum := 0, rdTemp := 0, phase := .idle } ∧
    exec .tick receiving = .next { receiving with waitTicks := 1 } :=
  ⟨next_of (by decide), next_of (by decide)⟩

theorem witness_ObservationIsNotRead : sameButObservation timed { timed with calls := 77, reply := some (.diag 3) } := rfl

theorem witness_FailedSetupIsInert :
    Invariants { State.reset with life := .failed } ∧ ({ State.reset with life := .failed } : State).fault = none ∧
    ({ State.reset with life := .failed } : State).life = .failed ∧
    (Instr.edgeFall 3).opcode.eventClass = .edge ∧
    Instr.irqArm ∈ [Instr.cycleReset, .irqDisarm, .irqArm, .asmStart] := by decide

theorem witness_EveryEventKeepsTheInvariants :
    Invariants receiving ∧ exec .tick receiving = .next { receiving with waitTicks := 1 } :=
  ⟨by decide, next_of (by decide)⟩

theorem witness_StepKeepsTheInvariants :
    Invariants { receiving with events := [0x20] } ∧
    step { receiving with events := [0x20] } = .next { receiving with waitTicks := 1 } :=
  ⟨by decide, next_of (by decide)⟩

end Sys2Proof.Tests
end

namespace Sys2Proof.Machine

open Sys2Proof.Safety

variable {s s' : State}

/-! ### The fault field under the agents' operations -/

@[simp] theorem classifyEdge_fault (t : Micros) (s : State) : (classifyEdge t s).fault = s.fault := by
  rw [classifyEdge_frame]

@[simp] theorem acceptRise_fault (t : Micros) (s : State) : (acceptRise t s).fault = s.fault := by
  rw [acceptRise_eq]

@[simp] theorem publishFrame_fault (s : State) : (publishFrame s).fault = s.fault := by
  rw [publishFrame_frame]

/-! ### Where an event is enabled -/

theorem enabled_of_some {r : FaultRecord} (hf : s.fault = some r) (i : Instr) : enabled i s = false := by
  simp [enabled, hf]

theorem fault_of_enabled {i : Instr} (h : enabled i s = true) : s.fault = none := by
  cases hf : s.fault with
  | none => rfl
  | some r => simp [enabled_of_some hf] at h

/-- Only the internal steps have an enabling condition besides the absence of a fault (R14). -/
theorem not_enabled_of_none {i : Instr} (hf : s.fault = none) (h : enabled i s = false) :
    (i = .asmRecv ∧ recvReady s = false) ∨ (i = .asmTimeout ∧ timeoutReady s = false) ∨
    (i = .validate ∧ validateReady s = false) := by
  cases i <;> simp_all [enabled]

/-! ### The three outcomes of an event -/

/-- Once a fault is recorded, every event stops as `quiescent` (R39, R200). -/
theorem exec_of_some {r : FaultRecord} (hf : s.fault = some r) (i : Instr) : exec i s = .fault (.quiescent r) := by
  cases i <;> exact whenLive_of_some hf

/-- An internal step stops as `notEnabled` where its own condition is false (R14, R77). -/
theorem exec_of_not_enabled {i : Instr} (hf : s.fault = none) (h : enabled i s = false) :
    exec i s = .fault (.notEnabled (codeOf i)) := by
  obtain ⟨rfl, hr⟩ | ⟨rfl, hr⟩ | ⟨rfl, hr⟩ := not_enabled_of_none hf h
  · simp [exec, execAsmRecv, whenLive_of_none hf, whenEnabled, hr, codeOf, Instr.opcode]
  · simp [exec, execAsmTimeout, whenLive_of_none hf, whenEnabled, hr, codeOf, Instr.opcode]
  · simp [exec, execValidate, whenLive_of_none hf, whenEnabled, hr, codeOf, Instr.opcode]

/-- The checks of a command answer a next state either way: the command's own, or the one that records the fault. -/
theorem whenRunning_goesOn {code : Byte} {k : Result} (hk : ∃ s', k = .next s') :
    ∃ s', whenRunning code s k = .next s' := by
  by_cases h : s.life = .running <;> simp [whenRunning, raiseFault, h, hk]

theorem whenIdle_goesOn {code : Byte} {k : Result} (hk : ∃ s', k = .next s') :
    ∃ s', whenIdle code s k = .next s' := by
  by_cases h : s.phase = .idle <;> simp [whenIdle, raiseFault, h, hk]

/-- An enabled event goes on, unless it is a falling edge outside the clock duty, which is refused (R14, R104). -/
theorem exec_of_enabled {i : Instr} (h : enabled i s = true) :
    (∃ s', exec i s = .next s') ∨ (clockDuty i s = false ∧ exec i s = .refused .nonMonotonicClock) := by
  have hf := fault_of_enabled h
  cases i with
  | init ok =>
    by_cases hl : s.life = .running <;> cases ok <;> simp [exec, execInit, whenLive_of_none hf, raiseFault, hl]
  | cycleReset =>
    simp only [exec, execCycleReset, whenLive_of_none hf]
    exact .inl (whenRunning_goesOn (whenIdle_goesOn ⟨_, rfl⟩))
  | irqDisarm =>
    simp only [exec, execIrqDisarm, whenLive_of_none hf]
    exact .inl (whenRunning_goesOn ⟨_, rfl⟩)
  | irqArm =>
    simp only [exec, execIrqArm, whenLive_of_none hf]
    exact .inl (whenRunning_goesOn ⟨_, rfl⟩)
  | asmStart =>
    simp only [exec, execAsmStart, whenLive_of_none hf]
    exact .inl (whenRunning_goesOn (whenIdle_goesOn ⟨_, rfl⟩))
  | read => exact .inl ⟨_, whenLive_of_none hf⟩
  | readDiag => exact .inl ⟨_, whenLive_of_none hf⟩
  | edgeFall t =>
    cases ha : s.armed <;> cases hc : clockWentBack t s <;>
      simp [exec, execEdgeFall, whenLive_of_none hf, clockDuty, ha, hc]
  | edgeRise t => cases ha : s.armed <;> simp [exec, execEdgeRise, whenLive_of_none hf, ha]
  | tick => exact .inl ⟨_, whenLive_of_none hf⟩
  | asmRecv =>
    have hr : recvReady s = true := by simpa [enabled, hf] using h
    exact .inl ⟨_, whenLive_next.2 ⟨hf, whenEnabled_next.2 ⟨hr, rfl⟩⟩⟩
  | asmTimeout =>
    have hr : timeoutReady s = true := by simpa [enabled, hf] using h
    exact .inl ⟨_, whenLive_next.2 ⟨hf, whenEnabled_next.2 ⟨hr, rfl⟩⟩⟩
  | validate =>
    have hr : validateReady s = true := by simpa [enabled, hf] using h
    exact .inl ⟨_, whenLive_next.2 ⟨hf, whenEnabled_next.2 ⟨hr, rfl⟩⟩⟩

/-- An event that goes on keeps the block without a fault, or it is a command that is not admitted, and takes a
fault by the one operation for it (R189, R200). -/
theorem exec_next_fault_cases {i : Instr} (h : exec i s = .next s') :
    s'.fault = none ∨ (admitted i s = false ∧ ∃ r, s' = s.recordFault r) := by
  have hf := exec_next_live h
  cases i with
  | init ok =>
    obtain ⟨-, ⟨hl, rfl⟩ | ⟨-, -, rfl⟩ | ⟨-, -, rfl⟩⟩ := execInit_next.1 h
    · exact .inr ⟨by simp [admitted, hl], _, rfl⟩
    · simp [hf]
    · simp [hf]
  | cycleReset =>
    obtain ⟨-, ⟨-, -, rfl⟩ | ⟨-, hp, rfl⟩ | ⟨hl, rfl⟩⟩ := execCycleReset_next.1 h
    · simp [hf]
    · exact .inr ⟨by simp [admitted, hp], _, rfl⟩
    · exact .inr ⟨by simp [admitted, hl], _, rfl⟩
  | irqDisarm =>
    obtain ⟨-, ⟨-, rfl⟩ | ⟨hl, rfl⟩⟩ := execIrqDisarm_next.1 h
    · simp [hf]
    · exact .inr ⟨by simp [admitted, hl], _, rfl⟩
  | irqArm =>
    obtain ⟨-, ⟨-, rfl⟩ | ⟨hl, rfl⟩⟩ := execIrqArm_next.1 h
    · simp [hf]
    · exact .inr ⟨by simp [admitted, hl], _, rfl⟩
  | asmStart =>
    obtain ⟨-, ⟨-, -, rfl⟩ | ⟨-, hp, rfl⟩ | ⟨hl, rfl⟩⟩ := execAsmStart_next.1 h
    · simp [hf]
    · exact .inr ⟨by simp [admitted, hp], _, rfl⟩
    · exact .inr ⟨by simp [admitted, hl], _, rfl⟩
  | read => simp [(execRead_next.1 h).2, hf]
  | readDiag => simp [(execReadDiag_next.1 h).2, hf]
  | edgeFall t => obtain ⟨-, ⟨-, rfl⟩ | ⟨-, -, rfl⟩⟩ := execEdgeFall_next.1 h <;> simp [hf]
  | edgeRise t => obtain ⟨-, ⟨-, rfl⟩ | ⟨-, rfl⟩⟩ := execEdgeRise_next.1 h <;> simp [hf]
  | tick => obtain ⟨-, ⟨-, rfl⟩ | ⟨-, rfl⟩⟩ := execTick_next.1 h <;> simp [hf]
  | asmRecv =>
    obtain ⟨-, -, b, rest, -, rfl⟩ := execAsmRecv_next.1 h
    simp [hf]
  | asmTimeout =>
    obtain ⟨-, -, -, -, rfl⟩ := execAsmTimeout_next.1 h
    simp [hf]
  | validate =>
    obtain ⟨-, -, rfl⟩ := execValidate_next.1 h
    simp [hf]

/-! ### The statements on faults, admission and enabling -/

/-- Settles O48: an event that goes on keeps the block without a fault or takes one by the one operation for it,
which writes the record alone. -/
theorem faultWritesOnlyItsRecord : Obligations.FaultWritesOnlyItsRecord := by
  intro i s s' h hfault
  obtain hnone | ⟨-, r, rfl⟩ := exec_next_fault_cases h
  · exact absurd hnone hfault
  · rfl

/-- Settles O50: an enabled event is refused only outside the clock duty, and where it goes on, only a command that
is not admitted records a fault. -/
theorem admittedEventsGoOn : Obligations.AdmittedEventsGoOn := by
  intro i s hen hadm hduty
  obtain ⟨s', h⟩ | ⟨hback, -⟩ := exec_of_enabled hen
  · obtain hnone | ⟨hnot, -⟩ := exec_next_fault_cases h
    · exact ⟨s', h, hnone⟩
    · simp [hnot] at hadm
  · simp [hback] at hduty

/-- Settles O51: an enabled event goes on or is refused, and one that is not enabled stops, as `quiescent` or as
`notEnabled`. -/
theorem noStepExactlyWhereNotEnabled : Obligations.NoStepExactlyWhereNotEnabled := by
  intro i s
  constructor
  · rintro ⟨r, hr⟩
    by_contra hen
    obtain ⟨s', h⟩ | ⟨-, h⟩ := exec_of_enabled (by simpa using hen) <;> simp [h] at hr
  · intro hen
    cases hf : s.fault with
    | some r => exact ⟨_, exec_of_some hf i⟩
    | none => exact ⟨_, exec_of_not_enabled hf hen⟩

end Sys2Proof.Machine

namespace Sys2Proof.Machine

open Sys2Proof.Safety

variable {s s' : State}

/-! ### What is only observed: the call counter, the outputs and the events to come -/

/-- The state with the call counter, the outputs and the event stream of another. -/
def State.reobserve (s o : State) : State :=
  { s with calls := o.calls, diag := o.diag, reply := o.reply, events := o.events }

/-- Two states differ only in what is observed exactly when one is the other, observed anew. -/
theorem sameButObservation_iff {t : State} : sameButObservation s t ↔ ∃ o, t = s.reobserve o :=
  ⟨fun h => ⟨t, h.symm⟩, by rintro ⟨o, rfl⟩; rfl⟩

theorem classifyEdge_reobserve (t : Micros) (s o : State) :
    classifyEdge t (s.reobserve o) = (classifyEdge t s).reobserve o := by
  rw [classifyEdge_frame, classifyEdge_frame t s, classifyEdge_chan, classifyEdge_chan]
  rfl

theorem acceptRise_reobserve (t : Micros) (s o : State) :
    acceptRise t (s.reobserve o) = (acceptRise t s).reobserve o := by
  rw [acceptRise_eq, acceptRise_eq]
  rfl

theorem publishFrame_reobserve (s o : State) : publishFrame (s.reobserve o) = (publishFrame s).reobserve o := by
  cases h : checksumOk s.frame with
  | true => rw [publishFrame_of_ok h, publishFrame_of_ok (s := s.reobserve o) h]; rfl
  | false => rw [publishFrame_of_bad h, publishFrame_of_bad (s := s.reobserve o) h]; rfl

theorem receiveBit_reobserve (s o : State) : receiveBit (s.reobserve o) = (receiveBit s).reobserve o := by
  cases h : s.chan with
  | nil => simp [receiveBit, h, State.reobserve]
  | cons b rest =>
    rw [receiveBit_cons h, receiveBit_cons (s := s.reobserve o) h]
    rfl

/-! ### The guards, in two states that differ only in what is observed -/

section Agree

variable {R : State → State → Prop} {k l : Result} (o : State)

/-- A test that reads nothing observed is the same test in both. -/
theorem outcomesAgree_ite {p : Prop} [Decidable p] {k' l' : Result} (hk : outcomesAgree R k l)
    (hk' : outcomesAgree R k' l') : outcomesAgree R (if p then k else k') (if p then l else l') := by
  split
  · exact hk
  · exact hk'

theorem outcomesAgree_whenLive (h : outcomesAgree R k l) :
    outcomesAgree R (whenLive s k) (whenLive (s.reobserve o) l) := by
  cases hf : s.fault with
  | some r =>
    rw [whenLive_of_some hf, whenLive_of_some (s := s.reobserve o) hf]
    rfl
  | none => rwa [whenLive_of_none hf, whenLive_of_none (s := s.reobserve o) hf]

theorem outcomesAgree_whenRunning (code : Byte) (h : outcomesAgree sameButObservation k l) :
    outcomesAgree sameButObservation (whenRunning code s k) (whenRunning code (s.reobserve o) l) :=
  outcomesAgree_ite h rfl

theorem outcomesAgree_whenIdle (code : Byte) (h : outcomesAgree sameButObservation k l) :
    outcomesAgree sameButObservation (whenIdle code s k) (whenIdle code (s.reobserve o) l) :=
  outcomesAgree_ite h rfl

theorem outcomesAgree_whenEnabled (code : Byte) (ready : Bool) (h : outcomesAgree R k l) :
    outcomesAgree R (whenEnabled code ready k) (whenEnabled code ready l) :=
  outcomesAgree_ite h rfl

end Agree

/-- An event does the same in a state observed anew, up to what is observed there (R27, R38). -/
theorem exec_reobserve (i : Instr) (s o : State) :
    outcomesAgree sameButObservation (exec i s) (exec i (s.reobserve o)) := by
  cases i with
  | init ok =>
    refine outcomesAgree_whenLive o (outcomesAgree_ite rfl ?_)
    cases ok <;> rfl
  | cycleReset => exact outcomesAgree_whenLive o (outcomesAgree_whenRunning o _ (outcomesAgree_whenIdle o _ rfl))
  | irqDisarm => exact outcomesAgree_whenLive o (outcomesAgree_whenRunning o _ rfl)
  | irqArm => exact outcomesAgree_whenLive o (outcomesAgree_whenRunning o _ rfl)
  | asmStart => exact outcomesAgree_whenLive o (outcomesAgree_whenRunning o _ (outcomesAgree_whenIdle o _ rfl))
  | read => exact outcomesAgree_whenLive o rfl
  | readDiag => exact outcomesAgree_whenLive o rfl
  | edgeFall t =>
    refine outcomesAgree_whenLive o (outcomesAgree_ite rfl (outcomesAgree_ite rfl ?_))
    exact sameButObservation_iff.2 ⟨o.countCall, classifyEdge_reobserve t s.countCall o.countCall⟩
  | edgeRise t =>
    refine outcomesAgree_whenLive o (outcomesAgree_ite rfl ?_)
    exact sameButObservation_iff.2 ⟨o.countCall, acceptRise_reobserve t s.countCall o.countCall⟩
  | tick =>
    refine outcomesAgree_whenLive o ?_
    change outcomesAgree _ (.next (if s.phase = .receiving then s.countTick else s))
      (.next (if s.phase = .receiving then (s.reobserve o).countTick else s.reobserve o))
    split <;> rfl
  | asmRecv =>
    refine outcomesAgree_whenLive o (outcomesAgree_whenEnabled _ _ ?_)
    exact sameButObservation_iff.2 ⟨o, receiveBit_reobserve s o⟩
  | asmTimeout => exact outcomesAgree_whenLive o (outcomesAgree_whenEnabled _ _ rfl)
  | validate =>
    refine outcomesAgree_whenLive o (outcomesAgree_whenEnabled _ _ ?_)
    exact sameButObservation_iff.2 ⟨o, congrArg (·.setPhase .idle) (publishFrame_reobserve s o)⟩

/-- Settles O56: a state that differs only in what is observed is the same state observed anew, where every guard
decides alike and every operation does the same. -/
theorem observationIsNotRead : Obligations.ObservationIsNotRead := by
  intro i s t h
  obtain ⟨o, rfl⟩ := sameButObservation_iff.1 h
  exact exec_reobserve i s o

/-! ### The invariants under the operations (R43) -/

/-- Of the invariants, only the bound on the channel speaks of the channel. -/
theorem invariants_setChan {cs : List Bit} (h : Invariants s) (hcs : cs.length ≤ Config.chanCap) :
    Invariants { s with chan := cs } :=
  ⟨hcs, h.2⟩

theorem invariants_chanPop (h : Invariants s) : Invariants s.chanPop :=
  invariants_setChan h ((chanPop_length_le s).trans h.1)

/-- A classified bit is queued only where there is room (R105). -/
theorem invariants_classifyEdge (t : Micros) (h : Invariants s) : Invariants (classifyEdge t s) := by
  unfold classifyEdge
  split
  · have hlen := offerBit_length_le (b := classify (elapsed t s)) h.1
    rw [offerBit_eq] at hlen ⊢
    exact invariants_setChan h hlen
  · exact h

/-- A rise never leaves the acknowledgement awaited (R102). -/
theorem invariants_acceptRise (t : Micros) (h : Invariants s) : Invariants (acceptRise t s) := by
  obtain ⟨hchan, hindex, hrecv, hval, hticks, -, hlife⟩ := h
  rw [acceptRise_eq]
  exact ⟨hchan, hindex, hrecv, hval, hticks, nofun, hlife⟩

/-- A phase other than IDLE is a running block's (R43). -/
theorem life_of_phase_ne_idle (h : Invariants s) (hp : s.phase ≠ .idle) : s.life = .running := by
  obtain ⟨-, -, -, -, -, -, hlife⟩ := h
  by_contra hl
  exact hp (hlife hl).1

/-- A bit taken while receiving is at most the 40th, and the 40th ends reception (R21, R124). -/
theorem invariants_shiftIn (b : Bit) (h : Invariants s) (hp : s.phase = .receiving) : Invariants (s.shiftIn b) := by
  have hl : s.life = .running := life_of_phase_ne_idle h (by simp [hp])
  obtain ⟨hchan, -, hrecv, -, -, hack, -⟩ := h
  have hindex := hrecv hp
  refine ⟨hchan, hindex, fun hr => ?_, fun hv => ?_, Nat.zero_le _, hack, fun hnot => absurd hl hnot⟩
  · exact lt_of_le_of_ne hindex (phaseAfter_eq_receiving.1 hr).1
  · obtain hk | hv := phaseAfter_eq_validating.1 hv
    · exact hk
    · simp [hp] at hv

theorem invariants_publishFrame (h : Invariants s) : Invariants (publishFrame s) := by
  rw [publishFrame_frame]
  exact h

/-- R43: whatever an event does when it goes on, it keeps the invariants. -/
theorem exec_keeps_invariants {i : Instr} (hinv : Invariants s) (h : exec i s = .next s') : Invariants s' := by
  have ⟨hchan, hindex, hrecv, hval, hticks, hack, hlife⟩ := hinv
  cases i with
  | init ok =>
    obtain ⟨-, ⟨-, rfl⟩ | ⟨hl, -, rfl⟩ | ⟨hl, -, rfl⟩⟩ := execInit_next.1 h
    · exact hinv
    · exact ⟨Nat.zero_le _, hindex, hrecv, hval, hticks, hack, fun hr => absurd rfl hr⟩
    · exact ⟨hchan, hindex, hrecv, hval, hticks, hack, fun _ => ⟨(hlife hl).1, rfl⟩⟩
  | cycleReset =>
    obtain ⟨-, ⟨hl, hp, rfl⟩ | ⟨-, -, rfl⟩ | ⟨-, rfl⟩⟩ := execCycleReset_next.1 h
    · simp [Invariants, hp, hl]
    · exact hinv
    · exact hinv
  | irqDisarm =>
    obtain ⟨-, ⟨hl, rfl⟩ | ⟨-, rfl⟩⟩ := execIrqDisarm_next.1 h
    · exact ⟨hchan, hindex, hrecv, hval, hticks, hack, fun hr => absurd hl hr⟩
    · exact hinv
  | irqArm =>
    obtain ⟨-, ⟨hl, rfl⟩ | ⟨-, rfl⟩⟩ := execIrqArm_next.1 h
    · exact ⟨hchan, hindex, hrecv, hval, hticks, hack, fun hr => absurd hl hr⟩
    · exact hinv
  | asmStart =>
    obtain ⟨-, ⟨hl, -, rfl⟩ | ⟨-, -, rfl⟩ | ⟨-, rfl⟩⟩ := execAsmStart_next.1 h
    · exact ⟨hchan, Nat.zero_le _, fun _ => Nat.zero_lt_succ _, nofun, Nat.zero_le _, hack, fun hr => absurd hl hr⟩
    · exact hinv
    · exact hinv
  | read =>
    obtain ⟨-, rfl⟩ := execRead_next.1 h
    exact hinv
  | readDiag =>
    obtain ⟨-, rfl⟩ := execReadDiag_next.1 h
    exact hinv
  | edgeFall t =>
    obtain ⟨-, ⟨-, rfl⟩ | ⟨-, -, rfl⟩⟩ := execEdgeFall_next.1 h
    · exact hinv
    · exact invariants_classifyEdge t hinv
  | edgeRise t =>
    obtain ⟨-, ⟨-, rfl⟩ | ⟨-, rfl⟩⟩ := execEdgeRise_next.1 h
    · exact hinv
    · exact invariants_acceptRise t hinv
  | tick =>
    obtain ⟨-, ⟨-, rfl⟩ | ⟨-, rfl⟩⟩ := execTick_next.1 h
    · exact ⟨hchan, hindex, hrecv, hval, Nat.min_le_right _ _, hack, hlife⟩
    · exact hinv
  | asmRecv =>
    obtain ⟨-, hp, b, rest, -, rfl⟩ := execAsmRecv_next.1 h
    exact invariants_shiftIn b (invariants_chanPop hinv) hp
  | asmTimeout =>
    obtain ⟨-, hp, -, -, rfl⟩ := execAsmTimeout_next.1 h
    exact invariants_shiftIn 0 hinv hp
  | validate =>
    obtain ⟨-, hp, rfl⟩ := execValidate_next.1 h
    have hl : s.life = .running := life_of_phase_ne_idle hinv (by simp [hp])
    obtain ⟨hchan, hindex, -, -, hticks, hack, hlife⟩ := invariants_publishFrame hinv
    exact ⟨hchan, hindex, nofun, nofun, hticks, hack, fun hr => ⟨rfl, (hlife hr).2⟩⟩

/-- Settles O59, by what each event can do when it goes on. -/
theorem everyEventKeepsTheInvariants : Obligations.EveryEventKeepsTheInvariants :=
  fun _ _ _ hinv h => exec_keeps_invariants hinv h

/-! ### The step -/

/-- Everything the step can do when it goes on: it runs the event at the head of the stream, on the rest of it, or
with no whole record offered ASM's own enabled step, or nothing (logs 1 and 2). -/
theorem step_next_cases (h : step s = .next s') :
    (∃ i rest, fetch s = .record i rest ∧ exec i (s.setEvents rest) = .next s') ∨
    (fetch s = .noRecord ∧ ∃ i, asmOwnStep s = some i ∧ exec i s = .next s') ∨
    (fetch s = .noRecord ∧ asmOwnStep s = none ∧ s' = s) := by
  unfold step at h
  cases hf : s.fault with
  | some r => simp [hf] at h
  | none =>
    cases hd : fetch s with
    | record i rest => exact .inl ⟨i, rest, rfl, by simpa [hf, hd] using h⟩
    | reserved b => simp [hf, hd] at h
    | noRecord =>
      cases ha : asmOwnStep s with
      | some i => exact .inr (.inl ⟨rfl, i, rfl, by simpa [hf, hd, ha] using h⟩)
      | none => exact .inr (.inr ⟨rfl, rfl, by simpa [hf, hd, ha, eq_comm] using h⟩)

/-- Settles O60: no invariant speaks of the event stream, and the event the step runs keeps them. -/
theorem stepKeepsTheInvariants : Obligations.StepKeepsTheInvariants := by
  intro s s' hinv h
  obtain ⟨i, rest, -, h⟩ | ⟨-, i, -, h⟩ | ⟨-, -, rfl⟩ := step_next_cases h
  · exact exec_keeps_invariants (s := s.setEvents rest) hinv h
  · exact exec_keeps_invariants hinv h
  · exact hinv

/-! ### Which fields an event writes -/

/-- Only the read commands return a value (R41, R74). -/
theorem exec_keeps_reply {i : Instr} (h : exec i s = .next s') (hread : i ≠ .read) (hdiag : i ≠ .readDiag) :
    s'.reply = s.reply := by
  cases i with
  | init ok => obtain ⟨-, ⟨-, rfl⟩ | ⟨-, -, rfl⟩ | ⟨-, -, rfl⟩⟩ := execInit_next.1 h <;> rfl
  | cycleReset => obtain ⟨-, ⟨-, -, rfl⟩ | ⟨-, -, rfl⟩ | ⟨-, rfl⟩⟩ := execCycleReset_next.1 h <;> rfl
  | irqDisarm => obtain ⟨-, ⟨-, rfl⟩ | ⟨-, rfl⟩⟩ := execIrqDisarm_next.1 h <;> rfl
  | irqArm => obtain ⟨-, ⟨-, rfl⟩ | ⟨-, rfl⟩⟩ := execIrqArm_next.1 h <;> rfl
  | asmStart => obtain ⟨-, ⟨-, -, rfl⟩ | ⟨-, -, rfl⟩ | ⟨-, rfl⟩⟩ := execAsmStart_next.1 h <;> rfl
  | read => exact absurd rfl hread
  | readDiag => exact absurd rfl hdiag
  | edgeFall t =>
    obtain ⟨-, ⟨-, rfl⟩ | ⟨-, -, rfl⟩⟩ := execEdgeFall_next.1 h
    · rfl
    · rw [classifyEdge_frame]; rfl
  | edgeRise t =>
    obtain ⟨-, ⟨-, rfl⟩ | ⟨-, rfl⟩⟩ := execEdgeRise_next.1 h
    · rfl
    · rw [acceptRise_eq]; rfl
  | tick => obtain ⟨-, ⟨-, rfl⟩ | ⟨-, rfl⟩⟩ := execTick_next.1 h <;> rfl
  | asmRecv =>
    obtain ⟨-, -, b, rest, -, rfl⟩ := execAsmRecv_next.1 h
    rfl
  | asmTimeout =>
    obtain ⟨-, -, -, -, rfl⟩ := execAsmTimeout_next.1 h
    rfl
  | validate =>
    obtain ⟨-, -, rfl⟩ := execValidate_next.1 h
    rw [publishFrame_frame]; rfl

/-- Settles O53, event by event: each case is the event's effect, or the record of a fault, which writes none of
these fields. -/
theorem fieldsAreWrittenByTheirEvents : Obligations.FieldsAreWrittenByTheirEvents := by
  intro i s s' h
  cases i with
  | init ok =>
    obtain ⟨-, ⟨-, rfl⟩ | ⟨-, -, rfl⟩ | ⟨-, -, rfl⟩⟩ := execInit_next.1 h <;> simp [Instr.opcode]
  | cycleReset =>
    obtain ⟨-, ⟨-, -, rfl⟩ | ⟨-, -, rfl⟩ | ⟨-, rfl⟩⟩ := execCycleReset_next.1 h <;> simp [Instr.opcode]
  | irqDisarm => obtain ⟨-, ⟨-, rfl⟩ | ⟨-, rfl⟩⟩ := execIrqDisarm_next.1 h <;> simp [Instr.opcode]
  | irqArm => obtain ⟨-, ⟨-, rfl⟩ | ⟨-, rfl⟩⟩ := execIrqArm_next.1 h <;> simp [Instr.opcode]
  | asmStart =>
    obtain ⟨-, ⟨-, -, rfl⟩ | ⟨-, -, rfl⟩ | ⟨-, rfl⟩⟩ := execAsmStart_next.1 h <;> simp [Instr.opcode]
  | read =>
    obtain ⟨-, rfl⟩ := execRead_next.1 h
    simp
  | readDiag =>
    obtain ⟨-, rfl⟩ := execReadDiag_next.1 h
    simp
  | edgeFall t =>
    obtain ⟨-, ⟨-, rfl⟩ | ⟨-, -, rfl⟩⟩ := execEdgeFall_next.1 h
    · simp
    · rw [classifyEdge_frame]; simp [Instr.opcode]
  | edgeRise t =>
    obtain ⟨-, ⟨-, rfl⟩ | ⟨-, rfl⟩⟩ := execEdgeRise_next.1 h
    · simp
    · rw [acceptRise_eq]; simp [Instr.opcode]
  | tick => obtain ⟨-, ⟨-, rfl⟩ | ⟨-, rfl⟩⟩ := execTick_next.1 h <;> simp [Instr.opcode]
  | asmRecv =>
    obtain ⟨-, -, b, rest, -, rfl⟩ := execAsmRecv_next.1 h
    simp [Instr.opcode]
  | asmTimeout =>
    obtain ⟨-, -, -, -, rfl⟩ := execAsmTimeout_next.1 h
    simp [Instr.opcode]
  | validate =>
    obtain ⟨-, -, rfl⟩ := execValidate_next.1 h
    rw [publishFrame_frame]; simp [Instr.opcode]

/-- A bit accounted for brings the index to 40 exactly where it ends reception (R21, R124). -/
theorem bitIndex_shiftIn_iff (b : Bit) (hp : s.phase = .receiving) :
    (s.shiftIn b).bitIndex = 40 ↔ (s.shiftIn b).phase = .validating := by
  simp [phaseAfter_eq_validating, hp, Config.frameBits]

/-- Settles O54: the bound is one of the invariants, which the event keeps, and the last clause is O53's. -/
theorem bitIndexNeverWraps : Obligations.BitIndexNeverWraps := by
  intro i s s' hinv h hfault
  obtain ⟨-, hindex, -⟩ := exec_keeps_invariants hinv h
  refine ⟨hindex, fun hi => ?_, fun hi => ?_, fun hi => ?_⟩
  · obtain rfl | rfl : i = .asmRecv ∨ i = .asmTimeout := by simpa using hi
    · obtain ⟨-, hp, b, rest, -, rfl⟩ := execAsmRecv_next.1 h
      exact ⟨rfl, bitIndex_shiftIn_iff b hp⟩
    · obtain ⟨-, hp, -, -, rfl⟩ := execAsmTimeout_next.1 h
      exact ⟨rfl, bitIndex_shiftIn_iff 0 hp⟩
  · obtain rfl | rfl : i = .asmStart ∨ i = .cycleReset := by simpa using hi
    · obtain ⟨-, ⟨-, -, rfl⟩ | ⟨-, -, rfl⟩ | ⟨-, rfl⟩⟩ := execAsmStart_next.1 h
      · rfl
      · simp at hfault
      · simp at hfault
    · obtain ⟨-, ⟨-, -, rfl⟩ | ⟨-, -, rfl⟩ | ⟨-, rfl⟩⟩ := execCycleReset_next.1 h
      · rfl
      · simp at hfault
      · simp at hfault
  · obtain ⟨-, -, -, -, -, -, haccumulator, -⟩ := fieldsAreWrittenByTheirEvents i s s' h
    refine (haccumulator ?_).1
    cases i <;> simp_all [Instr.opcode]

/-! ### The words of a reply -/

theorem extractLsb'_replyW0_low (s : State) : (replyW0 s).extractLsb' 0 16 = s.rdTemp := by
  ext i hi
  simp [replyW0, hi, show i < 32 by omega]

theorem extractLsb'_replyW0_high (s : State) : (replyW0 s).extractLsb' 16 16 = s.rdHum := by
  ext i hi
  simp [replyW0, show 16 + i < 32 by omega, BitVec.getLsbD_eq_getElem hi]

theorem extractLsb'_replyW1_low (s : State) : (replyW1 s).extractLsb' 0 2 = statusCode s.rdStatus := by
  cases h : s.rdStatus <;> simp [replyW1, h, statusCode]

theorem extractLsb'_replyW1_high (s : State) : (replyW1 s).extractLsb' 2 30 = 0 := by
  cases h : s.rdStatus <;> simp [replyW1, h, statusCode]

/-- No status has the reserved code 3 (R35). -/
theorem statusCode_ne_three (st : Status) : statusCode st ≠ 3 := by
  cases st <;> decide

/-- Settles O39: the words READ answers are W0, W1 and W2 of R74, and no other event but READ_DIAG answers any. -/
theorem replyLayout : Obligations.ReplyLayout := by
  refine ⟨fun s s' h => ?_, fun i s s' h => exec_keeps_reply h⟩
  obtain ⟨-, rfl⟩ := execRead_next.1 h
  refine ⟨replyW0 s, replyW1 s, replyW2 s, rfl, extractLsb'_replyW0_low s, extractLsb'_replyW0_high s,
    extractLsb'_replyW1_low s, ?_, extractLsb'_replyW1_high s, rfl⟩
  rw [extractLsb'_replyW1_low]
  exact statusCode_ne_three s.rdStatus

/-! ### Reset and the fault state -/

/-- Settles O47: every event is guarded by `whenLive`, and the step looks at the fault record first. -/
theorem faultedStateIsQuiescent : Obligations.FaultedStateIsQuiescent :=
  fun s r hf => ⟨by simp [step, hf], exec_of_some hf⟩

/-- Settles O58: State.reset is one concrete state. -/
theorem invariantsHoldAtReset : Obligations.InvariantsHoldAtReset := by
  unfold Obligations.InvariantsHoldAtReset
  decide

end Sys2Proof.Machine

namespace Sys2Proof.Machine

open Sys2Proof.Safety

variable {s s' : State}

/-! ### Stepping through the event stream -/

/-- The operand of an edge is its eight timestamp bytes and no more (R75). -/
theorem decodeEdge_timeBytes (mk : Micros → Instr) (t : Micros) (rest : List Byte) :
    decodeEdge mk (timeBytes t ++ rest) = .record (mk t) rest := by
  simp [decodeEdge, List.take_left' (timeBytes_length t), List.drop_left' (timeBytes_length t)]

/-- The record of an event decodes to it, whatever follows it in the stream (R75). -/
theorem decode_encode_append (i : Instr) (rest : List Byte) : decode (encode i ++ rest) = .record i rest := by
  rw [encode, codeOf, List.cons_append, decode_opcodeByte]
  cases i with
  | init ok => cases ok <;> rfl
  | edgeFall t => exact decodeEdge_timeBytes .edgeFall t rest
  | edgeRise t => exact decodeEdge_timeBytes .edgeRise t rest
  | cycleReset | irqDisarm | irqArm | asmStart | read | readDiag | tick | asmRecv | asmTimeout | validate => rfl

/-- Settles O11: `fetch` is the decoder on the event stream, and the step looks at nothing else before it. -/
theorem stepRunsTheNextEvent : Obligations.StepRunsTheNextEvent := by
  intro s i rest hf hd
  simp [step, hf, fetch, hd, State.setEvents]

/-- With the record of an event at the head of the stream, the step is that event on the rest of it, also where a
recorded fault stops both. -/
theorem step_setEvents_encode (i : Instr) (s : State) (bs : List Byte) :
    step (s.setEvents (encode i ++ bs)) = exec i (s.setEvents bs) := by
  cases hf : s.fault with
  | some r =>
    rw [exec_of_some (s := s.setEvents bs) hf]
    exact (faultedStateIsQuiescent (s.setEvents (encode i ++ bs)) r hf).1
  | none => exact stepRunsTheNextEvent _ i bs hf (decode_encode_append i bs)

theorem classifyEdge_setEvents (t : Micros) (s : State) (bs : List Byte) :
    classifyEdge t (s.setEvents bs) = (classifyEdge t s).setEvents bs := by
  rw [classifyEdge_frame, classifyEdge_frame t s, classifyEdge_chan, classifyEdge_chan]
  rfl

theorem acceptRise_setEvents (t : Micros) (s : State) (bs : List Byte) :
    acceptRise t (s.setEvents bs) = (acceptRise t s).setEvents bs := by
  rw [acceptRise_eq, acceptRise_eq]
  rfl

theorem publishFrame_setEvents (s : State) (bs : List Byte) :
    publishFrame (s.setEvents bs) = (publishFrame s).setEvents bs := by
  cases h : checksumOk s.frame with
  | true => rw [publishFrame_of_ok h, publishFrame_of_ok (s := s.setEvents bs) h]; rfl
  | false => rw [publishFrame_of_bad h, publishFrame_of_bad (s := s.setEvents bs) h]; rfl

theorem receiveBit_setEvents (s : State) (bs : List Byte) :
    receiveBit (s.setEvents bs) = (receiveBit s).setEvents bs := by
  cases h : s.chan with
  | nil => simp [receiveBit, h]
  | cons b rest =>
    rw [receiveBit_cons h, receiveBit_cons (s := s.setEvents bs) h]
    rfl

/-- Outcomes whose next states are related by a function are one the image of the other. -/
theorem eq_mapNext_of_outcomesAgree {f : State → State} {k l : Result}
    (h : outcomesAgree (fun s t => t = f s) k l) : l = mapNext f k := by
  cases k <;> cases l <;> simp_all [outcomesAgree, mapNext]

theorem outcomesAgree_whenLive_setEvents {R : State → State → Prop} {k l : Result} (bs : List Byte)
    (h : outcomesAgree R k l) : outcomesAgree R (whenLive s k) (whenLive (s.setEvents bs) l) :=
  outcomesAgree_whenLive (s.setEvents bs) h

/-- No event reads or writes the stream of the events to come. -/
theorem exec_setEvents (i : Instr) (s : State) (bs : List Byte) :
    exec i (s.setEvents bs) = mapNext (·.setEvents bs) (exec i s) := by
  apply eq_mapNext_of_outcomesAgree
  cases i with
  | init ok =>
    refine outcomesAgree_whenLive_setEvents bs (outcomesAgree_ite rfl ?_)
    cases ok <;> rfl
  | cycleReset => exact outcomesAgree_whenLive_setEvents bs (outcomesAgree_ite (outcomesAgree_ite rfl rfl) rfl)
  | irqDisarm => exact outcomesAgree_whenLive_setEvents bs (outcomesAgree_ite rfl rfl)
  | irqArm => exact outcomesAgree_whenLive_setEvents bs (outcomesAgree_ite rfl rfl)
  | asmStart => exact outcomesAgree_whenLive_setEvents bs (outcomesAgree_ite (outcomesAgree_ite rfl rfl) rfl)
  | read => exact outcomesAgree_whenLive_setEvents bs rfl
  | readDiag => exact outcomesAgree_whenLive_setEvents bs rfl
  | edgeFall t =>
    refine outcomesAgree_whenLive_setEvents bs (outcomesAgree_ite rfl (outcomesAgree_ite rfl ?_))
    exact classifyEdge_setEvents t s.countCall bs
  | edgeRise t =>
    refine outcomesAgree_whenLive_setEvents bs (outcomesAgree_ite rfl ?_)
    exact acceptRise_setEvents t s.countCall bs
  | tick =>
    refine outcomesAgree_whenLive_setEvents bs ?_
    change (if s.phase = .receiving then (s.setEvents bs).countTick else s.setEvents bs) =
      (if s.phase = .receiving then s.countTick else s).setEvents bs
    split <;> rfl
  | asmRecv => exact outcomesAgree_whenLive_setEvents bs (outcomesAgree_whenEnabled _ _ (receiveBit_setEvents s bs))
  | asmTimeout => exact outcomesAgree_whenLive_setEvents bs (outcomesAgree_whenEnabled _ _ rfl)
  | validate =>
    refine outcomesAgree_whenLive_setEvents bs (outcomesAgree_whenEnabled _ _ ?_)
    exact congrArg (·.setPhase .idle) (publishFrame_setEvents s bs)

/-- A run whose first step goes on is the rest of the run from there. -/
theorem run_succ_of_next {M : Host.Core} {t t' : M.State} (k : Nat) (h : M.step t = .next t') :
    M.run (k + 1) t = M.run k t' := by
  simp [Host.Core.run, h]

/-- A run ends at a first step that stops. -/
theorem run_succ_of_fault {M : Host.Core} {t : M.State} {r : M.Fault} (k : Nat) (h : M.step t = .fault r) :
    M.run (k + 1) t = .fault r := by
  simp [Host.Core.run, h]

theorem run_succ_of_refused {M : Host.Core} {t : M.State} {r : M.Refusal} (k : Nat) (h : M.step t = .refused r) :
    M.run (k + 1) t = .refused r := by
  simp [Host.Core.run, h]

/-- Settles O13, by induction on the trace: a step takes the first record off the stream and runs its event, which
leaves the rest of the stream to the steps after it. -/
theorem steppingIsTakingTheTrace : Obligations.SteppingIsTakingTheTrace := by
  intro is s rest
  change Host.Core.run core is.length (s.setEvents (serialise is ++ rest)) = runTrace is (s.setEvents rest)
  induction is generalizing s with
  | nil => rfl
  | cons i is ih =>
    have hstep : step (s.setEvents (serialise (i :: is) ++ rest)) =
        mapNext (·.setEvents (serialise is ++ rest)) (exec i s) := by
      rw [serialise, List.flatMap_cons, List.append_assoc]
      exact (step_setEvents_encode i s _).trans (exec_setEvents i s _)
    rw [runTrace, exec_setEvents i s rest]
    cases h : exec i s with
    | next t =>
      rw [h] at hstep
      exact (run_succ_of_next (M := core) is.length hstep).trans (ih t)
    | fault r =>
      rw [h] at hstep
      exact run_succ_of_fault (M := core) is.length hstep
    | refused r =>
      rw [h] at hstep
      exact run_succ_of_refused (M := core) is.length hstep

end Sys2Proof.Machine

namespace Sys2Proof.Machine

variable {s s' : State}

/-! ### A running cycle goes on (R62, R134) -/

/-- Settles O30: a receiving cycle with a queued bit takes it, one with an empty channel takes its timeout at the
deadline and counts a tick before it, and one with all its bits validates. -/
theorem cycleNeverStuck : Obligations.CycleNeverStuck := by
  intro s hinv hf hp
  cases hphase : s.phase with
  | idle => exact absurd hphase hp
  | validating => exact .inl ⟨.validate, _, rfl, execValidate_next.2 ⟨hf, hphase, rfl⟩⟩
  | receiving =>
    cases hc : s.chan with
    | cons b rest => exact .inl ⟨.asmRecv, _, rfl, execAsmRecv_next.2 ⟨hf, hphase, b, rest, hc, rfl⟩⟩
    | nil =>
      obtain ⟨-, -, -, -, hticks, -⟩ := hinv
      obtain hdead | hwait := hticks.eq_or_lt
      · exact .inl ⟨.asmTimeout, _, rfl, execAsmTimeout_next.2 ⟨hf, hphase, hc, hdead, rfl⟩⟩
      · exact .inr ⟨rfl, hwait, _, execTick_next.2 ⟨hf, .inl ⟨hphase, rfl⟩⟩, Nat.min_eq_left hwait⟩

/-! ### While the block is disarmed (R60, R103) -/

/-- An edge is discarded while the block is disarmed (R103). -/
theorem exec_edge_of_disarmed {i : Instr} (hf : s.fault = none) (ha : s.armed = false)
    (hi : i.opcode.eventClass = .edge) : exec i s = .next s := by
  cases i with
  | edgeFall t => exact execEdgeFall_next.2 ⟨hf, .inl ⟨ha, rfl⟩⟩
  | edgeRise t => exact execEdgeRise_next.2 ⟨hf, .inl ⟨ha, rfl⟩⟩
  | init | cycleReset | irqDisarm | irqArm | asmStart | read | readDiag | tick | asmRecv | asmTimeout | validate =>
    cases hi

/-- Setup has succeeded and the block is disarmed. -/
def State.RunningDisarmed (s : State) : Prop := s.life = .running ∧ s.armed = false

/-- Once setup has succeeded, only IRQ_ARM arms the block: INIT faults there (R180, R187). -/
theorem exec_keeps_runningDisarmed {i : Instr} (hi : i ≠ .irqArm) (h : exec i s = .next s')
    (hs : s.RunningDisarmed) : s'.RunningDisarmed := by
  obtain ⟨hl, ha⟩ := hs
  obtain ⟨hlife, harmed, -⟩ := fieldsAreWrittenByTheirEvents i s s' h
  cases i with
  | init ok =>
    obtain ⟨-, ⟨-, rfl⟩ | ⟨hnot, -⟩ | ⟨hnot, -⟩⟩ := execInit_next.1 h
    · exact ⟨hl, ha⟩
    · exact absurd hl hnot
    · exact absurd hl hnot
  | irqDisarm => obtain ⟨-, ⟨-, rfl⟩ | ⟨-, rfl⟩⟩ := execIrqDisarm_next.1 h <;> exact ⟨hl, by simp [ha]⟩
  | irqArm => exact absurd rfl hi
  | cycleReset | asmStart | read | readDiag | edgeFall | edgeRise | tick | asmRecv | asmTimeout | validate =>
    exact ⟨(hlife (by simp [Instr.opcode])).trans hl, (harmed (by simp [Instr.opcode])).trans ha⟩

theorem runTrace_keeps_runningDisarmed {is : List Instr} (harm : .irqArm ∉ is) (h : runTrace is s = .next s')
    (hs : s.RunningDisarmed) : s'.RunningDisarmed :=
  runTrace_keeps (fun _ hi _ _ hs h => exec_keeps_runningDisarmed (ne_of_mem_of_not_mem hi harm) h hs) hs h

/-- No trace but the empty one runs from a state with a recorded fault (R39, R200). -/
theorem runTrace_of_some {is : List Instr} {r : FaultRecord} (hf : s.fault = some r)
    (h : runTrace is s = .next s') : s' = s := by
  cases is with
  | nil => cases h; rfl
  | cons i is =>
    obtain ⟨s₁, hi, -⟩ := runTrace_cons.1 h
    simp [exec_of_some hf i] at hi

/-- Settles O45: IRQ_DISARM leaves a running block disarmed, or a fault from which no trace leads out, and without
IRQ_ARM it stays so. -/
theorem disarmedEdgesChangeNothing : Obligations.DisarmedEdgesChangeNothing := by
  intro is s s₁ s₂ h harm hrun hf t
  have ha : s₂.armed = false := by
    obtain ⟨-, ⟨hl, rfl⟩ | ⟨-, rfl⟩⟩ := execIrqDisarm_next.1 h
    · exact (runTrace_keeps_runningDisarmed harm hrun ⟨hl, rfl⟩).2
    · obtain rfl := runTrace_of_some (State.recordFault_fault _ _) hrun
      simp at hf
  exact ⟨exec_edge_of_disarmed hf ha rfl, exec_edge_of_disarmed hf ha rfl⟩

/-- DecoderState and the channel as CYCLE_RESET leaves them (R184, R231). -/
def State.DecoderReset (s : State) : Prop :=
  s.awaitAck = true ∧ s.timing = false ∧ s.lastRise = 0 ∧ s.calls = 0 ∧ s.chan = []

/-- While the block is disarmed no event takes the decoder or the channel out of reset: an edge is discarded, and
there is no bit to receive (R103, R126). -/
theorem exec_keeps_decoderReset {i : Instr} (ha : s.armed = false) (h : exec i s = .next s')
    (hs : s.DecoderReset) : s'.DecoderReset := by
  have hf := exec_next_live h
  obtain ⟨hack, htiming, hrise, hcalls, hchan⟩ := hs
  obtain ⟨-, -, hdecoder, hcounter, hchannel, -⟩ := fieldsAreWrittenByTheirEvents i s s' h
  cases i with
  | init ok =>
    obtain ⟨-, ⟨-, rfl⟩ | ⟨-, -, rfl⟩ | ⟨-, -, rfl⟩⟩ := execInit_next.1 h <;>
      simp [State.DecoderReset, *]
  | cycleReset =>
    obtain ⟨-, ⟨-, -, rfl⟩ | ⟨-, -, rfl⟩ | ⟨-, rfl⟩⟩ := execCycleReset_next.1 h <;> simp [State.DecoderReset, *]
  | edgeFall t =>
    cases (exec_edge_of_disarmed hf ha rfl).symm.trans h
    exact ⟨hack, htiming, hrise, hcalls, hchan⟩
  | edgeRise t =>
    cases (exec_edge_of_disarmed hf ha rfl).symm.trans h
    exact ⟨hack, htiming, hrise, hcalls, hchan⟩
  | asmRecv =>
    obtain ⟨-, -, b, rest, hcons, -⟩ := execAsmRecv_next.1 h
    simp [hchan] at hcons
  | irqDisarm | irqArm | asmStart | read | readDiag | tick | asmTimeout | validate =>
    obtain ⟨hack', htiming', hrise'⟩ := hdecoder (by simp [Instr.opcode])
    exact ⟨hack'.trans hack, htiming'.trans htiming, hrise'.trans hrise,
      (hcounter (by simp [Instr.opcode])).trans hcalls, (hchannel (by simp [Instr.opcode])).trans hchan⟩

theorem runTrace_keeps_decoderReset {is : List Instr} (harm : .irqArm ∉ is) (h : runTrace is s = .next s')
    (hdis : s.RunningDisarmed) (hs : s.DecoderReset) : s'.DecoderReset := by
  have step : ∀ i ∈ is, ∀ s s' : State, s.RunningDisarmed ∧ s.DecoderReset → exec i s = .next s' →
      s'.RunningDisarmed ∧ s'.DecoderReset := fun i hi s s' ⟨hdis, hs⟩ h =>
    ⟨exec_keeps_runningDisarmed (ne_of_mem_of_not_mem hi harm) h hdis, exec_keeps_decoderReset hdis.2 h hs⟩
  exact (runTrace_keeps step ⟨hdis, hs⟩ h).2

/-- Settles O46: a reset that records no fault is a running block's, which stays disarmed and so in reset until
IRQ_ARM. -/
theorem resetHoldsUntilArmed : Obligations.ResetHoldsUntilArmed := by
  intro is s s₁ s₂ ha h hf harm hrun
  obtain ⟨-, ⟨hl, -, rfl⟩ | ⟨-, -, rfl⟩ | ⟨-, rfl⟩⟩ := execCycleReset_next.1 h
  · exact runTrace_keeps_decoderReset harm hrun ⟨hl, ha⟩ ⟨rfl, rfl, rfl, rfl, rfl⟩
  · simp at hf
  · simp at hf

end Sys2Proof.Machine

namespace Sys2Proof.Machine

variable {s s' : State}

/-! ### Where the bits of a cycle land (R52, R124) -/

/-- The place in its frame byte of bit `k` of a cycle, once `n` bits are accounted for: bit 0 for the latest bit of
a byte, one higher for each bit the byte has taken since. -/
def bitPlace (n k : Nat) : Nat := min (8 * (k / 8) + 8) n - 1 - k

/-- In a complete byte the first bit stands highest. -/
theorem bitPlace_of_complete {n k : Nat} (h : 8 * (k / 8) + 8 ≤ n) : bitPlace n k = 7 - k % 8 := by
  unfold bitPlace
  omega

/-- The latest bit stands at the bottom of its byte. -/
theorem bitPlace_latest (n : Nat) : bitPlace (n + 1) n = 0 := by
  unfold bitPlace
  omega

/-- The next bit of the same byte finds this one below the top, and moves it up by one. -/
theorem bitPlace_lt_of_same_byte {n k : Nat} (hk : k < n) (h : n / 8 = k / 8) : bitPlace n k < 7 := by
  unfold bitPlace
  omega

theorem bitPlace_succ_of_same_byte {n k : Nat} (hk : k < n) (h : n / 8 = k / 8) :
    bitPlace (n + 1) k = bitPlace n k + 1 := by
  unfold bitPlace
  omega

/-- The bits of the bytes before stay at their places. -/
theorem bitPlace_succ_of_earlier_byte {n k : Nat} (hk : k < n) (h : n / 8 ≠ k / 8) :
    bitPlace (n + 1) k = bitPlace n k := by
  unfold bitPlace
  omega

/-- Each of the bits stands in the frame, at its place once all of them are accounted for. -/
def Frame.Holds (f : Frame) (bits : List Bit) : Prop :=
  ∀ k < bits.length, (frameByte f (k / 8)).getLsbD (bitPlace bits.length k) = (bits[k]? == some 1)

/-- The bit shifted in stands at the bottom of its byte. -/
theorem getLsbD_shiftIn_zero (x : Byte) (b : Bit) : ((x <<< 1) ||| b.setWidth 8).getLsbD 0 = (b == 1) := by
  have hbit : ∀ b : Bit, b[0] = (b == 1#1) := by decide
  simp [hbit]

/-- The bits of the byte so far move up by one. -/
theorem getLsbD_shiftIn_succ (x : Byte) (b : Bit) {p : Nat} (hp : p < 7) :
    ((x <<< 1) ||| b.setWidth 8).getLsbD (p + 1) = x.getLsbD p := by
  simp [show p + 1 < 8 by omega, BitVec.getLsbD_eq_getElem (show p < 8 by omega)]

/-- The frame takes one bit more (R124). -/
theorem holds_shiftFrame {f : Frame} {bits : List Bit} (b : Bit) (hlen : bits.length < 40) (h : f.Holds bits) :
    (shiftFrame f bits.length b).Holds (bits ++ [b]) := by
  have hbyte : bits.length / 8 < Config.frameBytes := Nat.div_lt_of_lt_mul hlen
  intro k hk
  rw [List.length_append, List.length_singleton] at hk ⊢
  rw [shiftFrame, byteIndex, frameByte_setFrameByte _ _ _ _ hbyte]
  obtain hlt | rfl := Nat.lt_succ_iff_lt_or_eq.1 hk
  · rw [List.getElem?_append_left hlt, ← h k hlt]
    by_cases hsame : bits.length / 8 = k / 8
    · rw [if_pos hsame, hsame, bitPlace_succ_of_same_byte hlt hsame,
        getLsbD_shiftIn_succ _ b (bitPlace_lt_of_same_byte hlt hsame)]
    · rw [if_neg hsame, bitPlace_succ_of_earlier_byte hlt hsame]
  · rw [if_pos rfl, bitPlace_latest, getLsbD_shiftIn_zero, List.getElem?_concat_length]
    rfl

/-- The accumulator after the given bits of a cycle: they are counted, and they stand in the frame. -/
structure State.Accumulated (s : State) (bits : List Bit) : Prop where
  index : s.bitIndex = bits.length
  bound : s.bitIndex ≤ 40
  room : s.phase = .receiving → s.bitIndex < 40
  holds : s.frame.Holds bits

/-- ShiftIn accounts for its bit (R124). -/
theorem State.Accumulated.shiftIn {bits : List Bit} (h : s.Accumulated bits) (hp : s.phase = .receiving) (b : Bit) :
    (s.shiftIn b).Accumulated (bits ++ [b]) where
  index := by simp [h.index]
  bound := h.room hp
  room hr := lt_of_le_of_ne (h.room hp) (phaseAfter_eq_receiving.1 hr).1
  holds := by
    have hlen : bits.length < 40 := h.index ▸ h.room hp
    rw [shiftIn_frame, h.index]
    exact holds_shiftFrame b hlen h.holds

/-- An event that leaves the accumulator alone and does not start reception leaves the bits where they are. -/
theorem State.Accumulated.of_eq {bits : List Bit} (h : s.Accumulated bits) (hindex : s'.bitIndex = s.bitIndex)
    (hframe : s'.frame = s.frame) (hphase : s'.phase = .receiving → s.phase = .receiving) : s'.Accumulated bits where
  index := hindex.trans h.index
  bound := hindex.trans_le h.bound
  room hr := hindex.trans_lt (h.room (hphase hr))
  holds := hframe ▸ h.holds

/-- Within a cycle, each event adds the bits it accounts for (R30). -/
theorem exec_accumulates {i : Instr} {bits : List Bit} (hstart : i ≠ .asmStart) (hreset : i ≠ .cycleReset)
    (h : exec i s = .next s') (hs : s.Accumulated bits) : s'.Accumulated (bits ++ accountedBit i s) := by
  obtain ⟨-, -, -, -, -, hphase, hacc, -⟩ := fieldsAreWrittenByTheirEvents i s s' h
  cases i with
  | asmStart => exact absurd rfl hstart
  | cycleReset => exact absurd rfl hreset
  | asmRecv =>
    obtain ⟨-, hp, b, rest, hc, rfl⟩ := execAsmRecv_next.1 h
    have hpop : s.chanPop.Accumulated bits := hs.of_eq rfl rfl id
    simpa [accountedBit, hc] using hpop.shiftIn hp b
  | asmTimeout =>
    obtain ⟨-, hp, -, -, rfl⟩ := execAsmTimeout_next.1 h
    have hdiag : (s.emitDiag ⟨.timeout, s.bitIndex⟩).Accumulated bits := hs.of_eq rfl rfl id
    exact hdiag.shiftIn hp 0
  | validate =>
    obtain ⟨hindex, hframe⟩ := hacc (by simp [Instr.opcode])
    obtain ⟨-, -, rfl⟩ := execValidate_next.1 h
    simpa [accountedBit] using hs.of_eq hindex hframe (by simp)
  | init | irqDisarm | irqArm | read | readDiag | edgeFall | edgeRise | tick =>
    obtain ⟨hindex, hframe⟩ := hacc (by simp [Instr.opcode])
    have hphase := hphase (by simp [Instr.opcode])
    simpa [accountedBit] using hs.of_eq hindex hframe (by simp [hphase])

theorem runTrace_accumulates {is : List Instr} {bits : List Bit} (hstart : .asmStart ∉ is) (hreset : .cycleReset ∉ is)
    (h : runTrace is s = .next s') (hs : s.Accumulated bits) : s'.Accumulated (bits ++ accountedBits is s) := by
  induction is generalizing s bits with
  | nil =>
    cases h
    simpa [accountedBits] using hs
  | cons i is ih =>
    obtain ⟨hi, hstart⟩ := not_or.1 (mt List.mem_cons.2 hstart)
    obtain ⟨hi', hreset⟩ := not_or.1 (mt List.mem_cons.2 hreset)
    obtain ⟨s₁, hexec, h⟩ := runTrace_cons.1 h
    rw [accountedBits_cons_next hexec, ← List.append_assoc]
    exact ih hstart hreset h (exec_accumulates (Ne.symm hi) (Ne.symm hi') hexec hs)

/-- A cycle begins with no bit accounted for. -/
theorem accumulated_nil (hk : s.bitIndex = 0) : s.Accumulated [] where
  index := hk
  bound := by omega
  room _ := by omega
  holds := nofun

/-- Queued bits are received in order while the cycle has room for them, and the 40th ends reception (R124, R126). -/
theorem runTrace_replicate_asmRecv {bits rest : List Bit} (hf : s.fault = none)
    (hp : s.phase = phaseAfter s.bitIndex .receiving) (hc : s.chan = bits ++ rest)
    (hlen : s.bitIndex + bits.length ≤ 40) :
    ∃ s' : State, runTrace (List.replicate bits.length .asmRecv) s = .next s' ∧
      accountedBits (List.replicate bits.length .asmRecv) s = bits ∧ s'.chan = rest ∧
      s'.phase = phaseAfter s'.bitIndex .receiving := by
  induction bits generalizing s with
  | nil => exact ⟨s, rfl, rfl, hc, hp⟩
  | cons b bits ih =>
    rw [List.length_cons] at hlen
    have hp : s.phase = .receiving := by
      rw [hp, phaseAfter_of_ne]
      simp only [Config.frameBits]
      omega
    have hexec : exec .asmRecv s = .next (s.chanPop.shiftIn b) :=
      execAsmRecv_next.2 ⟨hf, hp, b, bits ++ rest, hc, rfl⟩
    obtain ⟨s', hrun, hbits, hrest⟩ := ih (s := s.chanPop.shiftIn b) hf (by simp [hp]) (by simp [hc])
      (by rw [State.shiftIn_bitIndex, State.chanPop_bitIndex]; omega)
    refine ⟨s', ?_, ?_, hrest⟩
    · rw [List.length_cons, List.replicate_succ, runTrace_cons_next hexec, hrun]
    · rw [List.length_cons, List.replicate_succ, accountedBits_cons_next hexec, hbits]
      simp [accountedBit, hc]

/-- The landing of the bits over a trace of a cycle, R52's own sentence. -/
theorem runTrace_bits_land {is : List Instr} (hk : s.bitIndex = 0) (hstart : .asmStart ∉ is) (hreset : .cycleReset ∉ is)
    (h : runTrace is s = .next s') :
    s'.bitIndex = (accountedBits is s).length ∧ s'.bitIndex ≤ 40 ∧
    ∀ k, 8 * (k / 8) + 8 ≤ s'.bitIndex →
      (frameByte s'.frame (k / 8)).getLsbD (7 - k % 8) = ((accountedBits is s)[k]? == some 1) := by
  obtain ⟨hindex, hbound, -, hholds⟩ := runTrace_accumulates hstart hreset h (accumulated_nil hk)
  rw [List.nil_append] at hindex hholds
  refine ⟨hindex, hbound, fun k hcomplete => ?_⟩
  rw [hindex] at hcomplete
  rw [← bitPlace_of_complete hcomplete]
  exact hholds k (by omega)

/-- Settles O28: over a trace of a cycle by induction on it, and for forty queued bits by receiving them. -/
theorem bitsLandMsbFirst : Obligations.BitsLandMsbFirst := by
  refine ⟨fun is s s' _ hk hstart hreset h => runTrace_bits_land hk hstart hreset h, ?_⟩
  intro s bits rest hf hp hk hc hlen
  have hphase : s.phase = phaseAfter s.bitIndex .receiving := by rw [hp, hk, phaseAfter_of_ne _ (by decide)]
  obtain ⟨s', hrun, hbits, hrest, hphase⟩ := runTrace_replicate_asmRecv hf hphase hc (by omega)
  obtain ⟨hindex, -, hland⟩ := runTrace_bits_land hk (by simp) (by simp) hrun
  rw [hbits] at hindex hland
  rw [hlen] at hrun
  rw [hindex, hlen] at hphase
  exact ⟨s', hrun, hphase, hindex.trans hlen, hrest, fun k hk => hland k (by omega)⟩

end Sys2Proof.Machine

namespace Sys2Proof

/-! ### The opcode map (R70, R71, R76, R78) -/

/-- The code bytes that R76 lists as defined. -/
def definedCodes : List Byte :=
  [0x01, 0x02, 0x03, 0x04, 0x05, 0x06, 0x07, 0x10, 0x11, 0x20, 0x30, 0x31, 0x32]

theorem opcodeByte_mem_definedCodes (o : Opcode) : opcodeByte o ∈ definedCodes := by
  cases o <;> decide

/-- A byte outside R76's list matches no row. -/
theorem opcodeOf_of_notMem {c : Byte} (h : c ∉ definedCodes) : opcodeOf c = none := by
  cases ho : opcodeOf c with
  | none => rfl
  | some o => exact absurd (opcodeByte_of_opcodeOf c o ho ▸ opcodeByte_mem_definedCodes o) h

/-- Each byte of R76's list is the code of a row. -/
theorem exists_opcodeByte_eq {c : Byte} (h : c ∈ definedCodes) : ∃ o, opcodeByte o = c := by
  have hdefined : ∀ c ∈ definedCodes, (opcodeOf c).isSome := by decide
  obtain ⟨o, ho⟩ := Option.isSome_iff_exists.1 (hdefined c h)
  exact ⟨o, opcodeByte_of_opcodeOf c o ho⟩

theorem exists_opcode_eq (o : Opcode) : ∃ i : Instr, i.opcode = o := by
  cases o with
  | init => exact ⟨.init true, rfl⟩
  | cycleReset => exact ⟨.cycleReset, rfl⟩
  | irqDisarm => exact ⟨.irqDisarm, rfl⟩
  | irqArm => exact ⟨.irqArm, rfl⟩
  | asmStart => exact ⟨.asmStart, rfl⟩
  | read => exact ⟨.read, rfl⟩
  | readDiag => exact ⟨.readDiag, rfl⟩
  | edgeFall => exact ⟨.edgeFall 0, rfl⟩
  | edgeRise => exact ⟨.edgeRise 0, rfl⟩
  | tick => exact ⟨.tick, rfl⟩
  | asmRecv => exact ⟨.asmRecv, rfl⟩
  | asmTimeout => exact ⟨.asmTimeout, rfl⟩
  | validate => exact ⟨.validate, rfl⟩

/-- Every row fixes all eight bits of the code. -/
theorem mask_of_mem_opcodeTable : ∀ r ∈ opcodeTable, r.mask = BitVec.allOnes 8 := by decide

theorem nodup_patterns : (opcodeTable.map OpcodeRow.pattern).Nodup := by decide

/-- Settles O3: no row masks a bit out, so a byte matches a row only by being its pattern, and no two rows share a
pattern. -/
theorem opcodeRowsDoNotOverlap : Obligations.OpcodeRowsDoNotOverlap := by
  intro c
  have hrow : opcodeTable.filter (fun r => c &&& r.mask == r.pattern) =
      opcodeTable.filter ((· == c) ∘ OpcodeRow.pattern) := by
    refine List.filter_congr fun r hr => ?_
    rw [mask_of_mem_opcodeTable r hr, BitVec.and_allOnes]
    exact Bool.beq_comm
  rw [hrow, ← List.length_map OpcodeRow.pattern, ← List.filter_map, ← List.count_eq_length_filter]
  exact List.nodup_iff_count_le_one.1 nodup_patterns c

/-- Settles O4: the field is one of the thirteen code bytes' high four bits. -/
theorem codeClassField : Obligations.CodeClassField := by
  intro i
  rw [codeOf]
  cases i.opcode <;> rfl

/-! ### What a decoded record says about the bytes (R75) -/

theorem timeBytes_timeOfBytes_of_length {bs : List Byte} (h : bs.length = 8) : timeBytes (timeOfBytes bs) = bs := by
  match bs, h with
  | [b7, b6, b5, b4, b3, b2, b1, b0], _ => exact timeBytes_timeOfBytes b7 b6 b5 b4 b3 b2 b1 b0

theorem decodeInit_record {bs rest : List Byte} {i : Instr} (h : decodeInit bs = .record i rest) :
    ∃ ok, i = .init ok ∧ bs = operandBytes i ++ rest := by
  cases bs with
  | nil => simp [decodeInit] at h
  | cons b bs =>
    simp only [decodeInit] at h
    split_ifs at h with h1 h0
    · cases h; exact ⟨true, rfl, by rw [h1]; rfl⟩
    · cases h; exact ⟨false, rfl, by rw [h0]; rfl⟩

theorem decodeEdge_record {mk : Micros → Instr} {bs rest : List Byte} {i : Instr}
    (h : decodeEdge mk bs = .record i rest) : ∃ t, i = mk t ∧ bs = timeBytes t ++ rest := by
  rw [decodeEdge] at h
  split_ifs at h with hlen
  cases h
  refine ⟨_, rfl, ?_⟩
  rw [timeBytes_timeOfBytes_of_length (by simp; omega), List.take_append_drop]

/-- An operand that decodes is the operand of an event of that row. -/
theorem decodeOperand_record {o : Opcode} {bs rest : List Byte} {i : Instr}
    (h : decodeOperand o bs = .record i rest) : i.opcode = o ∧ bs = operandBytes i ++ rest := by
  cases o with
  | init =>
    obtain ⟨ok, rfl, hbs⟩ := decodeInit_record h
    exact ⟨rfl, hbs⟩
  | edgeFall =>
    obtain ⟨t, rfl, hbs⟩ := decodeEdge_record h
    exact ⟨rfl, hbs⟩
  | edgeRise =>
    obtain ⟨t, rfl, hbs⟩ := decodeEdge_record h
    exact ⟨rfl, hbs⟩
  | cycleReset | irqDisarm | irqArm | asmStart | read | readDiag | tick | asmRecv | asmTimeout | validate =>
    cases h; exact ⟨rfl, rfl⟩

/-- Fewer operand bytes than the event has are no whole record. -/
theorem decodeOperand_of_short {i : Instr} {bs : List Byte} (h : bs.length < (operandBytes i).length) :
    decodeOperand i.opcode bs = .noRecord := by
  cases i with
  | init ok =>
    obtain rfl : bs = [] := by simpa [operandBytes] using h
    rfl
  | edgeFall t => exact if_pos h
  | edgeRise t => exact if_pos h
  | cycleReset | irqDisarm | irqArm | asmStart | read | readDiag | tick | asmRecv | asmTimeout | validate =>
    simp [operandBytes] at h

theorem decode_of_opcodeOf_none {c : Byte} (h : opcodeOf c = none) (bs : List Byte) :
    decode (c :: bs) = .reserved c := by
  simp [decode, h]

/-! ### The statements on serialised records -/

/-- Settles O5: the code byte selects the event's row, and the row's operand reads back what was written. -/
theorem decodeOfEncode : Obligations.DecodeOfEncode := Machine.decode_encode_append

/-- Settles O6: the code byte fixes the row, and the row's decoder takes exactly the operand bytes off the stream. -/
theorem encodeOfDecode : Obligations.EncodeOfDecode := by
  intro bs i rest h
  cases bs with
  | nil => cases h
  | cons c bs =>
    cases ho : opcodeOf c with
    | none => simp [decode_of_opcodeOf_none ho] at h
    | some o =>
      obtain rfl := opcodeByte_of_opcodeOf c o ho
      obtain ⟨rfl, rfl⟩ := decodeOperand_record (decode_opcodeByte o bs ▸ h)
      rfl

/-- Settles O7: a prefix that is not empty holds the code byte, and with it too few operand bytes. -/
theorem truncatedRecordIsNoEvent : Obligations.TruncatedRecordIsNoEvent := by
  intro i bs tl h htl
  cases bs with
  | nil => rfl
  | cons c bs =>
    obtain ⟨rfl, hops⟩ : codeOf i = c ∧ operandBytes i = bs ++ tl := List.cons.inj h
    rw [codeOf, decode_opcodeByte]
    refine decodeOperand_of_short ?_
    have := List.length_pos_iff.2 htl
    rw [hops, List.length_append]
    omega

/-- Settles O2: each of the written byte strings is the record of its event, with the stream's rest after it. -/
theorem writtenRecordsDecode : Obligations.WrittenRecordsDecode :=
  ⟨decodeOfEncode (.init true) [], decodeOfEncode (.init false) [], decodeOfEncode .cycleReset [],
    decodeOfEncode .asmStart [], decodeOfEncode (.edgeFall 10238) [], decodeOfEncode (.edgeRise 10210) [],
    decodeOfEncode .tick [0x31], decodeOfEncode .asmRecv [], decodeOfEncode .asmTimeout [],
    decodeOfEncode .validate []⟩

end Sys2Proof

namespace Sys2Proof.Machine

open Sys2Proof.Safety

variable {s : State}

/-! ### The step on a reserved byte and on no record (R76, R77) -/

theorem step_of_reserved {b : Byte} (hf : s.fault = none) (hd : decode s.events = .reserved b) :
    step s = .refused (.reservedCode b) := by
  simp [step, hf, fetch, hd]

theorem step_of_ownStep {i : Instr} (hf : s.fault = none) (hd : decode s.events = .noRecord)
    (ho : asmOwnStep s = some i) : step s = exec i s := by
  simp [step, hf, fetch, hd, ho]

theorem step_of_no_ownStep (hf : s.fault = none) (hd : decode s.events = .noRecord) (ho : asmOwnStep s = none) :
    step s = .next s := by
  simp [step, hf, fetch, hd, ho]

/-- Settles O8: a byte outside R76's list matches no row, INIT's decoder gives a value to the bytes 0 and 1 only, and
every listed byte is the code of a row. -/
theorem reservedCodesAreRefused : Obligations.ReservedCodesAreRefused := by
  refine ⟨fun s c rest hf he hc => ?_, fun s b rest hf he h0 h1 => ?_, fun c hc => ?_⟩
  · exact step_of_reserved hf (he ▸ decode_of_opcodeOf_none (opcodeOf_of_notMem hc) rest)
  · have hinit : decode (opcodeByte .init :: b :: rest) = .reserved b := by
      rw [decode_opcodeByte, decodeOperand, decodeInit, if_neg h1, if_neg h0]
    exact step_of_reserved hf (he ▸ hinit)
  · obtain ⟨o, rfl⟩ := exists_opcodeByte_eq hc
    obtain ⟨i, rfl⟩ := exists_opcode_eq o
    exact ⟨i, rfl⟩

/-- Whichever of ASM's own steps is enabled is the one it takes: they exclude each other by the phase, and where the
phase is RECEIVING by the channel (R126, R130, R155). -/
theorem asmOwnStep_of_enabled {i : Instr} (hi : i ∈ [Instr.asmRecv, .asmTimeout, .validate])
    (h : enabled i s = true) : asmOwnStep s = some i := by
  have hf := fault_of_enabled h
  simp only [List.mem_cons, List.not_mem_nil, or_false] at hi
  obtain rfl | rfl | rfl := hi
  · have hr : recvReady s = true := by simpa [enabled, hf] using h
    simp [asmOwnStep, hr]
  · have hr : timeoutReady s = true := by simpa [enabled, hf] using h
    obtain ⟨-, hc, -⟩ := timeoutReady_iff.1 hr
    have hrecv : recvReady s = false := by simp [recvReady, hc]
    simp [asmOwnStep, hrecv, hr]
  · have hr : validateReady s = true := by simpa [enabled, hf] using h
    have hp := validateReady_iff.1 hr
    have hrecv : recvReady s = false := by simp [recvReady, hp]
    have htimeout : timeoutReady s = false := by simp [timeoutReady, hp]
    simp [asmOwnStep, hrecv, htimeout, hr]

theorem asmOwnStep_of_none_enabled (hf : s.fault = none)
    (h : ∀ i ∈ [Instr.asmRecv, .asmTimeout, .validate], enabled i s = false) : asmOwnStep s = none := by
  have hrecv : recvReady s = false := by simpa [enabled, hf] using h .asmRecv (by simp)
  have htimeout : timeoutReady s = false := by simpa [enabled, hf] using h .asmTimeout (by simp)
  have hvalidate : validateReady s = false := by simpa [enabled, hf] using h .validate (by simp)
  simp [asmOwnStep, hrecv, htimeout, hvalidate]

/-- Settles O12: with no record the step is ASM's own step, which is whichever of the three is enabled. -/
theorem stepWithNothingOffered : Obligations.StepWithNothingOffered := by
  intro s hf hd
  exact ⟨fun i hi h => step_of_ownStep hf hd (asmOwnStep_of_enabled hi h),
    fun h => step_of_no_ownStep hf hd (asmOwnStep_of_none_enabled hf h)⟩

/-! ### Pseudo-events (R80) -/

theorem expandMacro_pulse {t w : Nat} (h : t + w < 2 ^ 64) :
    expandMacro (.pulse t w) = some [.edgeRise (BitVec.ofNat 64 t), .edgeFall (BitVec.ofNat 64 (t + w))] :=
  if_pos h

/-- Settles O10: three expansions are the definition's; both edges of a pulse keep their value in 64 bits. -/
theorem pseudoEventExpansions : Obligations.PseudoEventExpansions := by
  refine ⟨fun _ => rfl, fun _ => rfl, fun t w h => ?_, rfl⟩
  have ht : t < 2 ^ 64 := by omega
  exact ⟨_, _, expandMacro_pulse h, (BitVec.toNat_ofNat t 64).trans (Nat.mod_eq_of_lt ht),
    (BitVec.toNat_ofNat (t + w) 64).trans (Nat.mod_eq_of_lt h)⟩

/-! ### Decimal numbers (R79) -/

theorem digitChar_toNat {d : Nat} (h : d < 10) : (digitChar d).toNat = 48 + d := by
  interval_cases d <;> rfl

@[simp] theorem digitValue_digitChar {d : Nat} (h : d < 10) : digitValue (digitChar d) = some d := by
  simp only [digitValue, digitChar_toNat h]
  rw [if_pos (by omega), Nat.add_sub_cancel_left]

/-- Reading goes on from the number the first digits spell. -/
theorem readDigits_append (acc : Nat) (xs ys : List Char) :
    readDigits acc (xs ++ ys) = (readDigits acc xs).bind (readDigits · ys) := by
  induction xs generalizing acc with
  | nil => rfl
  | cons c xs ih =>
    cases h : digitValue c with
    | none => simp [readDigits, h]
    | some d => simp [readDigits, h, ih]

theorem decimalDigits_ne_nil (fuel n : Nat) : decimalDigits (fuel + 1) n ≠ [] := by
  rw [decimalDigits]
  split <;> simp

/-- The digits of a number that fits in them spell it. -/
theorem readDigits_decimalDigits {fuel n : Nat} (h : n < 10 ^ (fuel + 1)) :
    readDigits 0 (decimalDigits (fuel + 1) n) = some n := by
  induction fuel generalizing n with
  | zero =>
    have hn : n < 10 := h
    simp [decimalDigits, hn, readDigits]
  | succ fuel ih =>
    rw [decimalDigits]
    split
    case isTrue hn => simp [readDigits, hn]
    case isFalse =>
      have hdiv : n / 10 < 10 ^ (fuel + 1) := by rw [pow_succ] at h; omega
      have hmod : n % 10 < 10 := Nat.mod_lt n (by omega)
      rw [readDigits_append, ih hdiv, Option.bind_some]
      simp [readDigits, hmod, Nat.div_add_mod]

theorem mem_decimalDigits {fuel n : Nat} {c : Char} (h : c ∈ decimalDigits fuel n) : ∃ d < 10, c = digitChar d := by
  induction fuel generalizing n with
  | zero => simp [decimalDigits] at h
  | succ fuel ih =>
    rw [decimalDigits] at h
    split at h
    case isTrue hn => exact ⟨n, hn, by simpa using h⟩
    case isFalse =>
      obtain hfirst | hlast := List.mem_append.1 h
      · exact ih hfirst
      · exact ⟨n % 10, Nat.mod_lt n (by omega), by simpa using hlast⟩

/-- Twenty digits are enough for 64 bits. -/
theorem readTimestamp_showTimestamp (t : Micros) : readTimestamp (showTimestamp t) = some t := by
  have hnum : readDecimal (decimalDigits 20 t.toNat) = some t.toNat := by
    rw [readDecimal, List.isEmpty_eq_false_iff.2 (decimalDigits_ne_nil 19 _)]
    exact readDigits_decimalDigits (t.isLt.trans (by norm_num))
  simp [showTimestamp, readTimestamp, hnum, t.isLt]

/-! ### The words of a line (R79) -/

/-- The reader splits as the library's `List.splitOn` does. -/
theorem splitAt_eq_splitOn (sep : Char) (cs : List Char) : splitAt sep cs = cs.splitOn sep := by
  induction cs with
  | nil => rfl
  | cons c cs ih =>
    rw [splitAt, ih, List.splitOn_cons_eq_if_modifyHead]
    obtain ⟨w, ws, hw⟩ := List.exists_cons_of_ne_nil (List.splitOn_ne_nil sep cs)
    simp [hw]

theorem notMem_intercalate {c sep : Char} {ws : List (List Char)} (hsep : c ≠ sep) (hws : ∀ w ∈ ws, c ∉ w) :
    c ∉ [sep].intercalate ws := by
  induction ws with
  | nil => simp
  | cons w ws ih =>
    cases ws with
    | nil => simpa using hws w
    | cons v vs =>
      have hrest : c ∉ [sep].intercalate (v :: vs) := ih fun u hu => hws u (List.mem_cons_of_mem w hu)
      have hw : c ∉ w := hws w List.mem_cons_self
      simp [List.intercalate_cons_cons, hw, hsep, hrest]

/-- A word of a line: not empty, and without the characters that end a word or start a comment. -/
structure IsWord (w : List Char) : Prop where
  nonempty : w ≠ []
  noSpace : ' ' ∉ w
  noComment : ';' ∉ w

/-- A line of words joined by spaces has these words. -/
theorem lineWords_intercalate {ws : List (List Char)} (hne : ws ≠ []) (h : ∀ w ∈ ws, IsWord w) :
    lineWords ([' '].intercalate ws) = ws := by
  have hcomment : ';' ∉ [' '].intercalate ws := notMem_intercalate (by decide) fun w hw => (h w hw).noComment
  have hall : ([' '].intercalate ws).takeWhile (fun c => c != ';') = [' '].intercalate ws := by
    refine List.takeWhile_eq_self_iff.2 fun c hc => ?_
    simpa using ne_of_mem_of_not_mem hc hcomment
  rw [lineWords, hall, splitAt_eq_splitOn, List.splitOn_intercalate ' ' (fun w hw => (h w hw).noSpace) hne,
    List.filter_eq_self]
  intro w hw
  simpa using (h w hw).nonempty

theorem isWord_eventName (o : Opcode) : IsWord (eventName o) := by
  cases o <;> exact ⟨by decide, by decide, by decide⟩

theorem isWord_showTimestamp (t : Micros) : IsWord (showTimestamp t) := by
  have hdigits {c : Char} (hc : ∀ d < 10, c ≠ digitChar d) : c ∉ decimalDigits 20 t.toNat := by
    intro hmem
    obtain ⟨d, hd, rfl⟩ := mem_decimalDigits hmem
    exact hc d hd rfl
  refine ⟨by simp [showTimestamp], ?_, ?_⟩
  · simpa [showTimestamp] using hdigits (c := ' ') (by decide)
  · simpa [showTimestamp] using hdigits (c := ';') (by decide)

theorem isWord_of_mem_eventWords {i : Instr} {w : List Char} (h : w ∈ eventWords i) : IsWord w := by
  cases i with
  | init ok =>
    cases ok with
    | false =>
      obtain rfl | rfl := List.mem_pair.1 h
      · exact isWord_eventName .init
      · exact ⟨by decide, by decide, by decide⟩
    | true =>
      obtain rfl | rfl := List.mem_pair.1 h
      · exact isWord_eventName .init
      · exact ⟨by decide, by decide, by decide⟩
  | edgeFall t =>
    obtain rfl | rfl := List.mem_pair.1 h
    · exact isWord_eventName .edgeFall
    · exact isWord_showTimestamp t
  | edgeRise t =>
    obtain rfl | rfl := List.mem_pair.1 h
    · exact isWord_eventName .edgeRise
    · exact isWord_showTimestamp t
  | cycleReset | irqDisarm | irqArm | asmStart | read | readDiag | tick | asmRecv | asmTimeout | validate =>
    exact List.mem_singleton.1 h ▸ isWord_eventName _

theorem eventWords_ne_nil (i : Instr) : eventWords i ≠ [] := by
  unfold eventWords
  split <;> exact List.cons_ne_nil _ _

/-- The words of an event read back as that event. -/
theorem readEvent_eventWords (i : Instr) : readEvent (eventWords i) = some i := by
  cases i with
  | init ok => cases ok <;> decide
  | edgeFall t =>
    have hinit : eventName .edgeFall ≠ eventName .init := by decide
    simp [eventWords, readEvent, hinit, readTimestamp_showTimestamp]
  | edgeRise t =>
    have hinit : eventName .edgeRise ≠ eventName .init := by decide
    have hfall : eventName .edgeRise ≠ eventName .edgeFall := by decide
    simp [eventWords, readEvent, hinit, hfall, readTimestamp_showTimestamp]
  | cycleReset | irqDisarm | irqArm | asmStart | read | readDiag | tick | asmRecv | asmTimeout | validate => decide

/-- Settles O9: the printed line has the event's words, and they read back as the event. -/
theorem traceTextReadsBack : Obligations.TraceTextReadsBack := by
  intro i
  have hwords : lineWords (showEvent i) = eventWords i :=
    lineWords_intercalate (eventWords_ne_nil i) fun _ => isWord_of_mem_eventWords
  simp [readLine, hwords, eventWords_ne_nil i, readEvent_eventWords]

end Sys2Proof.Machine

namespace Sys2Proof.Machine

variable {s : State}

/-! ### What classifying a fall and accepting a rise leave unchanged -/

@[simp] theorem classifyEdge_calls (t : Micros) (s : State) : (classifyEdge t s).calls = s.calls := by
  rw [classifyEdge_frame]

@[simp] theorem acceptRise_calls (t : Micros) (s : State) : (acceptRise t s).calls = s.calls := by
  rw [acceptRise_eq]

@[simp] theorem classifyEdge_timing (t : Micros) (s : State) : (classifyEdge t s).timing = s.timing := by
  rw [classifyEdge_frame]

/-! ### A falling edge, case by case (R100, R101, R104, R105) -/

/-- Classify over naturals, on the interval since the recorded rise (R100). -/
theorem classify_elapsed {t : Micros} (h : s.lastRise.toNat ≤ t.toNat) :
    classify (elapsed t s) = if t.toNat - s.lastRise.toNat > 50 then 1 else 0 := by
  rw [classify_eq, toNat_elapsed h]

theorem classifyEdge_of_untimed (t : Micros) (htiming : s.timing = false) : classifyEdge t s = s := by
  simp [classifyEdge, htiming]

theorem classifyEdge_of_room (t : Micros) (htiming : s.timing = true) (hroom : s.chan.length < 40) :
    classifyEdge t s = s.chanPush (classify (elapsed t s)) := by
  rw [classifyEdge_frame, classifyEdge_chan, if_pos ⟨htiming, hroom⟩]
  rfl

theorem classifyEdge_of_full (t : Micros) (hfull : 40 ≤ s.chan.length) : classifyEdge t s = s := by
  rw [classifyEdge_frame, classifyEdge_chan, if_neg fun ⟨_, hroom⟩ => hroom.not_ge hfull]

/-- A falling edge that is delivered and keeps the clock duty is counted and classified. -/
theorem exec_edgeFall_of_armed {t : Micros} (hf : s.fault = none) (harmed : s.armed = true)
    (hclock : s.timing = true → s.lastRise.toNat ≤ t.toNat) :
    exec (.edgeFall t) s = .next (classifyEdge t s.countCall) := by
  have hforward : clockWentBack t s = false := by
    refine Bool.eq_false_iff.2 fun hback => ?_
    obtain ⟨htiming, hlt⟩ := clockWentBack_iff.1 hback
    exact hlt.not_ge (hclock htiming)
  exact execEdgeFall_next.2 ⟨hf, .inr ⟨harmed, hforward, rfl⟩⟩

theorem exec_edgeFall_of_clockBack {t : Micros} (hf : s.fault = none) (harmed : s.armed = true)
    (htiming : s.timing = true) (hback : t.toNat < s.lastRise.toNat) :
    exec (.edgeFall t) s = .refused .nonMonotonicClock :=
  execEdgeFall_refused.2 ⟨hf, harmed, clockWentBack_iff.2 ⟨htiming, hback⟩, rfl⟩

/-- No rise has been recorded: the fall is counted, and there is no interval to classify (R101). -/
theorem exec_edgeFall_of_untimed (t : Micros) (hf : s.fault = none) (harmed : s.armed = true)
    (htiming : s.timing = false) : exec (.edgeFall t) s = .next s.countCall := by
  rw [exec_edgeFall_of_armed hf harmed (by simp [htiming]), classifyEdge_of_untimed (s := s.countCall) t htiming]

theorem exec_edgeFall_of_room {t : Micros} (hf : s.fault = none) (harmed : s.armed = true)
    (htiming : s.timing = true) (hclock : s.lastRise.toNat ≤ t.toNat) (hroom : s.chan.length < 40) :
    exec (.edgeFall t) s = .next (s.countCall.chanPush (classify (elapsed t s))) := by
  rw [exec_edgeFall_of_armed hf harmed fun _ => hclock, classifyEdge_of_room (s := s.countCall) t htiming hroom]
  rfl

/-- The bit is dropped, and the fall is counted all the same (R105). -/
theorem exec_edgeFall_of_full {t : Micros} (hf : s.fault = none) (harmed : s.armed = true)
    (hclock : s.lastRise.toNat ≤ t.toNat) (hfull : 40 ≤ s.chan.length) :
    exec (.edgeFall t) s = .next s.countCall := by
  rw [exec_edgeFall_of_armed hf harmed fun _ => hclock, classifyEdge_of_full (s := s.countCall) t hfull]

/-! ### A rising edge, case by case (R102) -/

/-- The acknowledgement's rise is counted and ends the wait for it; it is not recorded. -/
theorem exec_edgeRise_of_ack (t : Micros) (hf : s.fault = none) (harmed : s.armed = true)
    (hack : s.awaitAck = true) : exec (.edgeRise t) s = .next s.countCall.takeAck := by
  have haccept : acceptRise t s.countCall = s.countCall.takeAck := if_pos hack
  exact execEdgeRise_next.2 ⟨hf, .inr ⟨harmed, haccept.symm⟩⟩

theorem exec_edgeRise_of_data (t : Micros) (hf : s.fault = none) (harmed : s.armed = true)
    (hack : s.awaitAck = false) : exec (.edgeRise t) s = .next (s.countCall.recordRise t) := by
  have haccept : acceptRise t s.countCall = s.countCall.recordRise t := if_neg (by simp [hack])
  exact execEdgeRise_next.2 ⟨hf, .inr ⟨harmed, haccept.symm⟩⟩

/-! ### The statements on one edge -/

/-- Settles O14: the elapsed time does not wrap, so the bit compares naturals. -/
theorem thresholdDecidesTheBit : Obligations.ThresholdDecidesTheBit := by
  intro s t hf harmed htiming hclock hroom
  rw [exec_edgeFall_of_room hf harmed htiming hclock hroom, classify_elapsed hclock]
  rfl

/-- Settles O15, by the rule of each case. -/
theorem edgeFallFollowsItsRule : Obligations.EdgeFallFollowsItsRule := fun _ t hf =>
  ⟨fun ha => exec_edge_of_disarmed hf ha rfl,
    exec_edgeFall_of_clockBack hf,
    exec_edgeFall_of_untimed t hf,
    exec_edgeFall_of_room hf,
    fun harmed _ => exec_edgeFall_of_full hf harmed⟩

/-- Settles O16, by the rule of each case. -/
theorem edgeRiseFollowsItsRule : Obligations.EdgeRiseFollowsItsRule := fun _ t hf =>
  ⟨fun ha => exec_edge_of_disarmed hf ha rfl, exec_edgeRise_of_ack t hf, exec_edgeRise_of_data t hf⟩

/-- Settles O18: an edge is discarded, or counted before its bit or its rise is dealt with. -/
theorem everyDeliveredEdgeIsCounted : Obligations.EveryDeliveredEdgeIsCounted := by
  intro i s s' hi h
  cases i with
  | edgeFall t =>
    obtain ⟨-, ⟨ha, rfl⟩ | ⟨ha, -, rfl⟩⟩ := execEdgeFall_next.1 h
    · simp [ha]
    · simp [ha, BitVec.toNat_add]
  | edgeRise t =>
    obtain ⟨-, ⟨ha, rfl⟩ | ⟨ha, rfl⟩⟩ := execEdgeRise_next.1 h
    · simp [ha]
    · simp [ha, BitVec.toNat_add]
  | init | cycleReset | irqDisarm | irqArm | asmStart | read | readDiag | tick | asmRecv | asmTimeout | validate =>
    cases hi

/-- Settles O19: a discarded fall changes nothing, and a delivered one writes the channel, by one bit where it is
timed and there is room. -/
theorem fallingEdgeKeepsTiming : Obligations.FallingEdgeKeepsTiming := by
  intro s s' t h
  obtain ⟨-, ⟨ha, rfl⟩ | ⟨ha, -, rfl⟩⟩ := execEdgeFall_next.1 h
  · simp [ha]
  · refine ⟨by simp, ?_⟩
    rw [classifyEdge_chan, apply_ite List.length]
    simp [ha, Config.chanCap]

/-! ### The edges of a reply (R109) -/

/-- The bit a pulse stands for: its rise, and the fall that ends it (R100). -/
def pulseBit (p : Micros × Micros) : Bit := if p.2.toNat - p.1.toNat > 50 then 1 else 0

/-- One pulse: the rise is recorded, the fall queues its bit, and both are counted. -/
theorem runTrace_pulse {p : Micros × Micros} {is : List Instr} (hf : s.fault = none) (harmed : s.armed = true)
    (hack : s.awaitAck = false) (hp : p.1.toNat ≤ p.2.toNat) (hroom : s.chan.length < 40) :
    runTrace (.edgeRise p.1 :: .edgeFall p.2 :: is) s =
      runTrace is ((s.countCall.recordRise p.1).countCall.chanPush (pulseBit p)) := by
  have hfall := exec_edgeFall_of_room (s := s.countCall.recordRise p.1) hf harmed rfl hp hroom
  rw [classify_elapsed (s := s.countCall.recordRise p.1) hp] at hfall
  rw [runTrace_cons_next (exec_edgeRise_of_data p.1 hf harmed hack), runTrace_cons_next hfall]
  rfl

/-- The state after the data edges of a reply: the pulses `bits`, and the final rise at `t`. -/
def State.afterBits (s : State) (bits : List (Micros × Micros)) (t : Micros) : State :=
  { s with
    timing := true
    lastRise := t
    calls := s.calls + BitVec.ofNat 32 (2 * bits.length + 1)
    chan := s.chan ++ bits.map pulseBit }

/-- The first pulse, and the rest from there. -/
theorem afterBits_cons (p : Micros × Micros) (bits : List (Micros × Micros)) (t : Micros) :
    ((s.countCall.recordRise p.1).countCall.chanPush (pulseBit p)).afterBits bits t = s.afterBits (p :: bits) t := by
  have hcalls : s.calls + 1 + 1 + BitVec.ofNat 32 (2 * bits.length + 1) =
      s.calls + BitVec.ofNat 32 (2 * (bits.length + 1) + 1) := by bv_omega
  simp only [State.afterBits, State.countCall, State.recordRise, State.chanPush, List.length_cons, List.map_cons,
    List.append_assoc, List.singleton_append, hcalls]

/-- After the acknowledgement, each pulse queues its bit, whether or not an earlier rise is recorded. -/
theorem runTrace_bitEdges {bits : List (Micros × Micros)} (t : Micros) (hf : s.fault = none)
    (harmed : s.armed = true) (hack : s.awaitAck = false) (hbits : ∀ p ∈ bits, p.1.toNat ≤ p.2.toNat)
    (hroom : s.chan.length + bits.length ≤ 40) :
    runTrace (bitEdges bits ++ [.edgeRise t]) s = .next (s.afterBits bits t) := by
  induction bits generalizing s with
  | nil =>
    rw [bitEdges, List.flatMap_nil, List.nil_append, runTrace_cons_next (exec_edgeRise_of_data t hf harmed hack)]
    simp [runTrace, State.afterBits, State.countCall, State.recordRise]
  | cons p bits ih =>
    rw [List.length_cons] at hroom
    have hrest : (s.chan ++ [pulseBit p]).length + bits.length ≤ 40 := by
      rw [List.length_append, List.length_singleton]
      omega
    calc runTrace (bitEdges (p :: bits) ++ [.edgeRise t]) s
      _ = runTrace (bitEdges bits ++ [.edgeRise t])
            ((s.countCall.recordRise p.1).countCall.chanPush (pulseBit p)) :=
        runTrace_pulse hf harmed hack (hbits p List.mem_cons_self) (by omega)
      _ = .next (s.afterBits (p :: bits) t) := by
        rw [← afterBits_cons]
        exact ih hf harmed hack (fun q hq => hbits q (List.mem_cons_of_mem p hq)) hrest

/-- Settles O20: no rise is recorded until the acknowledgement has passed, so the first falls are only counted; then
each pulse queues its bit. -/
theorem replyOfBitsIsClassified : Obligations.ReplyOfBitsIsClassified := by
  intro s t₁ t₂ t₃ t₄ bits hf harmed hack htiming hbits hroom
  have hresponse : exec (.edgeFall t₁) s = .next s.countCall := exec_edgeFall_of_untimed t₁ hf harmed htiming
  have hackRise : exec (.edgeRise t₂) s.countCall = .next s.countCall.countCall.takeAck :=
    exec_edgeRise_of_ack t₂ hf harmed hack
  have hstart : exec (.edgeFall t₃) s.countCall.countCall.takeAck = .next s.countCall.countCall.takeAck.countCall :=
    exec_edgeFall_of_untimed t₃ hf harmed htiming
  have hdata := runTrace_bitEdges (s := s.countCall.countCall.takeAck.countCall) t₄ hf harmed rfl hbits hroom
  have hcalls : s.calls + 1 + 1 + 1 + BitVec.ofNat 32 (2 * bits.length + 1) =
      s.calls + BitVec.ofNat 32 (2 * bits.length + 4) := by bv_omega
  rw [replyEdges, List.append_assoc, List.cons_append, runTrace_cons_next hresponse, List.cons_append,
    runTrace_cons_next hackRise, List.cons_append, runTrace_cons_next hstart, List.nil_append, hdata, ← hcalls]
  rfl

end Sys2Proof.Machine

namespace Sys2Proof.Machine

open Sys2Proof.Safety

variable {s : State}

/-! ### The assembler's events, case by case (R121, R122, R126, R130) -/

theorem exec_tick_of_receiving (hf : s.fault = none) (hp : s.phase = .receiving) :
    exec .tick s = .next s.countTick :=
  execTick_next.2 ⟨hf, .inl ⟨hp, rfl⟩⟩

theorem exec_asmRecv_of_cons {b : Bit} {rest : List Bit} (hf : s.fault = none) (hp : s.phase = .receiving)
    (hc : s.chan = b :: rest) : exec .asmRecv s = .next (s.chanPop.shiftIn b) :=
  execAsmRecv_next.2 ⟨hf, hp, b, rest, hc, rfl⟩

theorem exec_asmTimeout_of_deadline (hf : s.fault = none) (hp : s.phase = .receiving) (hc : s.chan = [])
    (hticks : s.waitTicks = 500) :
    exec .asmTimeout s = .next ((s.emitDiag ⟨.timeout, s.bitIndex⟩).shiftIn 0) :=
  execAsmTimeout_next.2 ⟨hf, hp, hc, hticks, rfl⟩

/-- ShiftIn while receiving, with the byte over naturals (R124). -/
theorem shiftIn_of_receiving (b : Bit) (hp : s.phase = .receiving) :
    s.shiftIn b =
      { s with
        frame := setFrameByte s.frame (s.bitIndex / 8)
          (BitVec.ofNat 8 (2 * (frameByte s.frame (s.bitIndex / 8)).toNat + b.toNat))
        bitIndex := s.bitIndex + 1
        waitTicks := 0
        phase := if s.bitIndex + 1 = 40 then .validating else .receiving } := by
  rw [State.shiftIn, shiftFrame_eq, hp]
  rfl

/-! ### The statements on one event of the assembler -/

/-- Settles O21: the checks of ASM_START come in the order of the cases. -/
theorem asmStartFollowsItsRule : Obligations.AsmStartFollowsItsRule := fun _ hf =>
  ⟨fun hl => execAsmStart_next.2 ⟨hf, .inr (.inr ⟨hl, rfl⟩)⟩,
    fun hl hp => execAsmStart_next.2 ⟨hf, .inr (.inl ⟨hl, hp, rfl⟩)⟩,
    fun hl hp => execAsmStart_next.2 ⟨hf, .inl ⟨hl, hp, rfl⟩⟩⟩

/-- Settles O22, by the two cases of a tick. -/
theorem tickFollowsItsRule : Obligations.TickFollowsItsRule := fun _ hf =>
  ⟨exec_tick_of_receiving hf, fun hp => execTick_next.2 ⟨hf, .inr ⟨hp, rfl⟩⟩⟩

/-- Settles O23: the head is popped and shifted in, and a next state is answered only while receiving with a bit
queued. -/
theorem asmRecvFollowsItsRule : Obligations.AsmRecvFollowsItsRule := by
  intro s hf
  refine ⟨fun b rest hp hc => ?_, fun hnot s' h => ?_⟩
  · rw [exec_asmRecv_of_cons hf hp hc, shiftIn_of_receiving (s := s.chanPop) b hp]
    simp [State.chanPop, hc]
  · obtain ⟨-, hp, b, rest, hc, -⟩ := execAsmRecv_next.1 h
    simp [hp, hc] at hnot

/-- Settles O24: the substituted bit is a 0, and a next state is answered only while receiving at the deadline of an
empty channel. -/
theorem asmTimeoutFollowsItsRule : Obligations.AsmTimeoutFollowsItsRule := by
  intro s hf
  refine ⟨fun hp hc hticks => ?_, fun hnot s' h => ?_⟩
  · rw [exec_asmTimeout_of_deadline hf hp hc hticks, shiftIn_of_receiving (s := s.emitDiag _) 0 hp]
    rfl
  · obtain ⟨-, hp, hc, hticks, -⟩ := execAsmTimeout_next.1 h
    simp [hp, hc, hticks, Config.deadlineTicks] at hnot

/-- The abort keeps the invariants: a receiving block is running, and of the phases only IDLE asks nothing of
`bit_index` (R43, R132). -/
theorem invariants_abort (hinv : Invariants s) (hp : s.phase = .receiving) :
    Invariants (timeoutUnder .abortInvalid s) := by
  have hl : s.life = .running := life_of_phase_ne_idle hinv (by simp [hp])
  obtain ⟨hchan, hindex, -, -, -, hack, -⟩ := hinv
  exact ⟨hchan, hindex, nofun, nofun, Nat.zero_le _, hack, fun hnot => absurd hl hnot⟩

/-- Settles O25: the abort writes its four fields, and one of them is the phase, which becomes IDLE. -/
theorem abortPolicyEndsTheCycle : Obligations.AbortPolicyEndsTheCycle := fun _ hinv hp =>
  ⟨rfl, ⟨by simp [hp], rfl⟩, invariants_abort hinv hp⟩

/-- The internal events are the three steps ASM takes by itself (R70, R77). -/
theorem mem_ownSteps_of_internal {i : Instr} (hi : i.opcode.eventClass = .internal) :
    i ∈ [Instr.asmRecv, .asmTimeout, .validate] := by
  cases i with
  | asmRecv | asmTimeout | validate => simp
  | init | cycleReset | irqDisarm | irqArm | asmStart | read | readDiag | edgeFall | edgeRise | tick => cases hi

/-- Settles O26: an enabled internal event is the one ASM takes by itself, and it takes one. -/
theorem ownStepsExcludeEachOther : Obligations.OwnStepsExcludeEachOther := by
  intro s i j hi hj heni henj
  have hown := asmOwnStep_of_enabled (mem_ownSteps_of_internal hi) heni
  exact Option.some.inj (hown.symm.trans (asmOwnStep_of_enabled (mem_ownSteps_of_internal hj) henj))

/-! ### Queued bits received one after the other (R125, R126) -/

/-- While the cycle has room for them, receiving queued bits is shifting them in, in order. -/
theorem runTrace_replicate_asmRecv_eq {bits rest : List Bit} (hf : s.fault = none) (hp : s.phase = .receiving)
    (hc : s.chan = bits ++ rest) (hlen : s.bitIndex + bits.length < 40) :
    runTrace (List.replicate bits.length .asmRecv) s = .next (bits.foldl State.shiftIn { s with chan := rest }) := by
  induction bits generalizing s with
  | nil => rw [List.nil_append] at hc; subst hc; rfl
  | cons b bits ih =>
    rw [List.length_cons] at hlen
    have hphase : (s.chanPop.shiftIn b).phase = .receiving :=
      phaseAfter_eq_receiving.2 ⟨by simp only [State.chanPop_bitIndex, Config.frameBits]; omega, hp⟩
    have hchan : (s.chanPop.shiftIn b).chan = bits ++ rest := by simp [hc]
    rw [List.length_cons, List.replicate_succ, runTrace_cons_next (exec_asmRecv_of_cons hf hp hc),
      ih (s := s.chanPop.shiftIn b) hf hphase hchan
        (by simp only [State.shiftIn_bitIndex, State.chanPop_bitIndex]; omega)]
    rfl

/-- The first eight bits of a cycle go into the first byte (R30, R124). -/
theorem shiftFrame_of_lt_eight {f : Frame} {k : Nat} (b : Bit) (hk : k < 8) :
    shiftFrame f k b = { f with b0 := BitVec.ofNat 8 (2 * f.b0.toNat + b.toNat) } := by
  rw [shiftFrame_eq, Nat.div_eq_of_lt hk]
  rfl

/-- Settles O27: the eight bits are shifted into the empty byte one after the other. -/
theorem msbFirstExample : Obligations.MsbFirstExample := by
  intro s rest hf hp hk hb hc
  have hrun := runTrace_replicate_asmRecv_eq hf hp hc (by simp [hk])
  refine hrun.trans ?_
  simp [State.shiftIn, shiftFrame_of_lt_eight, phaseAfter, Config.frameBits, hp, hk, hb]

/-! ### A cycle in which no bit arrives (R134) -/

/-- Ticks within the deadline are all counted (R122). -/
theorem runTrace_replicate_tick {n : Nat} (hf : s.fault = none) (hp : s.phase = .receiving)
    (hn : s.waitTicks + n ≤ 500) :
    runTrace (List.replicate n .tick) s = .next { s with waitTicks := s.waitTicks + n } := by
  induction n generalizing s with
  | zero => rfl
  | succ n ih =>
    have hcount : s.countTick = { s with waitTicks := s.waitTicks + 1 } := by
      rw [State.countTick, Nat.min_eq_left (by simp only [Config.deadlineTicks]; omega)]
    rw [List.replicate_succ, runTrace_cons_next (exec_tick_of_receiving hf hp), hcount,
      ih (s := { s with waitTicks := s.waitTicks + 1 }) hf hp (by dsimp only; omega), Nat.add_right_comm, Nat.add_assoc]

/-- One bit's wait in silence: the ticks of its deadline, and its timeout (R134). -/
def silentRound : List Instr := List.replicate 500 .tick ++ [.asmTimeout]

/-- A silent wait ends in the timeout's effect, which leaves none of the ticks counted. -/
theorem runTrace_silentRound (hf : s.fault = none) (hp : s.phase = .receiving) (hc : s.chan = [])
    (hticks : s.waitTicks = 0) :
    runTrace silentRound s = .next ((s.emitDiag ⟨.timeout, s.bitIndex⟩).shiftIn 0) := by
  have hwait := runTrace_replicate_tick (n := 500) hf hp (by omega)
  rw [hticks, Nat.zero_add] at hwait
  rw [silentRound, runTrace_append hwait,
    runTrace_cons_next (exec_asmTimeout_of_deadline (s := { s with waitTicks := 500 }) hf hp hc rfl)]
  rfl

/-- The state `n` silent waits into a cycle, with the frame built so far (R131, R134). -/
def State.afterTimeouts (s : State) (n : Nat) (f : Frame) : State :=
  { s with
    phase := phaseAfter n s.phase
    bitIndex := n
    frame := f
    diag := s.diag ++ (List.range n).map fun k => ⟨.timeout, k⟩ }

/-- A cycle begins with no bit accounted for and no diagnostic of its own. -/
theorem afterTimeouts_zero (hk : s.bitIndex = 0) : s.afterTimeouts 0 s.frame = s := by
  rw [State.afterTimeouts, phaseAfter_of_ne _ (by decide), List.range_zero, List.map_nil, List.append_nil, ← hk]

/-- One timeout more, on the next bit. -/
theorem afterTimeouts_succ {n : Nat} {f : Frame} (hn : n < 40) (hticks : s.waitTicks = 0) :
    ((s.afterTimeouts n f).emitDiag ⟨.timeout, n⟩).shiftIn 0 = s.afterTimeouts (n + 1) (shiftFrame f n 0) := by
  have hphase : phaseAfter n s.phase = s.phase := phaseAfter_of_ne _ hn.ne
  simp [State.afterTimeouts, State.emitDiag, State.shiftIn, hphase, hticks, List.range_succ]

/-- Silent waits account for a 0 each, and for nothing else. -/
theorem runTrace_silentRounds {n : Nat} (hf : s.fault = none) (hp : s.phase = .receiving) (hk : s.bitIndex = 0)
    (hticks : s.waitTicks = 0) (hc : s.chan = []) (hn : n ≤ 40) :
    ∃ f : Frame, f.Holds (List.replicate n 0) ∧
      runTrace (List.replicate n silentRound).flatten s = .next (s.afterTimeouts n f) := by
  induction n with
  | zero => exact ⟨s.frame, nofun, congrArg _ (afterTimeouts_zero hk).symm⟩
  | succ n ih =>
    obtain ⟨f, hholds, hrun⟩ := ih (by omega)
    have hphase : (s.afterTimeouts n f).phase = .receiving :=
      phaseAfter_eq_receiving.2 ⟨by simp only [Config.frameBits]; omega, hp⟩
    have hround := runTrace_silentRound (s := s.afterTimeouts n f) hf hphase hc hticks
    refine ⟨shiftFrame f n 0, ?_, ?_⟩
    · have hlen : (List.replicate n (0 : Bit)).length = n := List.length_replicate
      have hnext := holds_shiftFrame 0 (by omega) hholds
      rwa [hlen, ← List.replicate_succ'] at hnext
    · rw [List.replicate_succ', List.flatten_append, runTrace_append hrun, List.flatten_singleton, hround]
      exact congrArg _ (afterTimeouts_succ hn hticks)

/-- A byte that holds eight zeros of a complete cycle is zero. -/
theorem frameByte_eq_zero_of_holds {f : Frame} (h : f.Holds (List.replicate 40 0)) {i : Nat} (hi : i < 5) :
    frameByte f i = 0 := by
  refine BitVec.eq_of_getLsbD_eq fun p hp => ?_
  have hbit := h (8 * i + (7 - p)) (by rw [List.length_replicate]; omega)
  rw [List.length_replicate, bitPlace_of_complete (by omega), show (8 * i + (7 - p)) / 8 = i by omega,
    show 7 - (8 * i + (7 - p)) % 8 = p by omega, List.getElem?_replicate_of_lt (by omega)] at hbit
  simpa using hbit

/-- Forty zeros fill the frame with zeros. -/
theorem frame_eq_zero_of_holds {f : Frame} (h : f.Holds (List.replicate 40 0)) : f = Frame.zero := by
  obtain ⟨b0, b1, b2, b3, b4⟩ := f
  have hzero : ∀ i < 5, frameByte ⟨b0, b1, b2, b3, b4⟩ i = 0 := fun _ hi => frameByte_eq_zero_of_holds h hi
  exact (Frame.mk.injEq ..).mpr
    ⟨hzero 0 (by decide), hzero 1 (by decide), hzero 2 (by decide), hzero 3 (by decide), hzero 4 (by decide)⟩

/-- Settles O29: forty silent waits account for forty zeros, and the last ends reception. -/
theorem silentCycleTimesOutFortyTimes : Obligations.SilentCycleTimesOutFortyTimes := by
  intro s hf hp hk hticks hc
  obtain ⟨f, hholds, hrun⟩ := runTrace_silentRounds hf hp hk hticks hc le_rfl
  obtain rfl := frame_eq_zero_of_holds hholds
  exact hrun

end Sys2Proof.Machine

namespace Sys2Proof.Machine

variable {s : State} {f : Frame}

/-! ### Two words side by side (R74, R153, R154) -/

/-- A word above another of the same width, over naturals: it weighs `2 ^ w`. -/
theorem toNat_wordAbove {w v : Nat} (hi lo : BitVec w) (hv : 2 * w ≤ v) :
    ((hi.setWidth v <<< w) ||| lo.setWidth v).toNat = 2 ^ w * hi.toNat + lo.toNat := by
  have hfits : hi.toNat * 2 ^ w < 2 ^ v := calc
    hi.toNat * 2 ^ w < 2 ^ w * 2 ^ w := Nat.mul_lt_mul_of_pos_right hi.isLt (by positivity)
    _ = 2 ^ (2 * w) := by rw [← pow_add, two_mul]
    _ ≤ 2 ^ v := Nat.pow_le_pow_right two_pos hv
  rw [BitVec.toNat_or, BitVec.toNat_shiftLeft, BitVec.toNat_setWidth_of_le (by omega),
    BitVec.toNat_setWidth_of_le (by omega), Nat.shiftLeft_eq, Nat.mod_eq_of_lt hfits, ← Nat.shiftLeft_eq,
    ← Nat.shiftLeft_add_eq_or_of_lt lo.isLt, Nat.shiftLeft_eq, mul_comm]

theorem toNat_humTenths (f : Frame) : (humTenths f).toNat = 256 * f.b0.toNat + f.b1.toNat :=
  toNat_wordAbove f.b0 f.b1 (by decide)

/-- The mask of TempMag leaves the sign bit out (R154). -/
theorem toNat_tempMag (f : Frame) : (tempMag f).toNat = 256 * (f.b2.toNat % 128) + f.b3.toNat := by
  have hmask : (f.b2 &&& 0x7F).toNat = f.b2.toNat % 128 := Nat.and_two_pow_sub_one_eq_mod f.b2.toNat 7
  rw [tempMag, toNat_wordAbove _ _ (by decide), hmask]
  rfl

theorem toNat_replyW0 (s : State) : (replyW0 s).toNat = 65536 * s.rdHum.toNat + s.rdTemp.toNat :=
  toNat_wordAbove s.rdHum s.rdTemp (by decide)

/-! ### The temperature as an integer (R154) -/

theorem tempMag_lt (f : Frame) : (tempMag f).toNat < 2 ^ 15 := by
  have := f.b3.isLt
  rw [toNat_tempMag]
  omega

/-- A 15-bit magnitude is no negative number, so negating it is exact. -/
theorem toInt_tempTenths (f : Frame) :
    (tempTenths f).toInt = (if f.b2.getLsbD 7 then -1 else 1) * ((tempMag f).toNat : Int) := by
  have hlt := tempMag_lt f
  have hmag : (tempMag f).toInt = (tempMag f).toNat := BitVec.toInt_eq_toNat_of_lt (by omega)
  have hmin : tempMag f ≠ BitVec.intMin 16 := fun h => by simp [h] at hlt
  rw [tempTenths]
  split
  · rw [BitVec.toInt_neg_of_ne_intMin hmin, hmag, neg_one_mul]
  · rw [hmag, one_mul]

theorem signBit_iff (b : Byte) : b.getLsbD 7 = true ↔ 128 ≤ b.toNat := by
  rw [← BitVec.msb_eq_getLsbD_last, BitVec.msb_eq_decide, decide_eq_true_iff]

/-! ### The checksum (R151) -/

theorem checksumOk_iff :
    checksumOk f = true ↔ f.b4.toNat = (f.b0.toNat + f.b1.toNat + f.b2.toNat + f.b3.toNat) % 256 :=
  beq_iff_eq

/-- The low byte of the sum over naturals is the sum of bytes. -/
theorem checksumOk_iff_eq_add : checksumOk f = true ↔ f.b4 = f.b0 + f.b1 + f.b2 + f.b3 := by
  rw [checksumOk_iff, ← BitVec.toNat_inj]
  simp [BitVec.toNat_add]

/-! ### The sign bit set, with the checksum recomputed (R164) -/

/-- The frame `f'` of R164. -/
def Frame.withSign (f : Frame) : Frame := { f with b2 := f.b2 ||| 0x80, b4 := f.b4 + 0x80 }

/-- Setting a clear sign bit adds its weight. -/
theorem or_signBit {b : Byte} (h : b.getLsbD 7 = false) : b ||| 0x80 = b + 0x80 := by
  have hdisjoint : b &&& BitVec.twoPow 8 7 = 0#8 := by rw [BitVec.and_twoPow, h]; rfl
  exact (BitVec.add_eq_or_of_and_eq_zero b _ hdisjoint).symm

theorem checksumOk_withSign (hsign : f.b2.getLsbD 7 = false) (h : checksumOk f = true) :
    checksumOk f.withSign = true := by
  rw [checksumOk_iff_eq_add] at h ⊢
  change f.b4 + 0x80 = f.b0 + f.b1 + (f.b2 ||| 0x80) + f.b3
  rw [or_signBit hsign, h]
  ac_rfl

theorem humTenths_withSign (f : Frame) : humTenths f.withSign = humTenths f := rfl

theorem tempMag_withSign (f : Frame) : tempMag f.withSign = tempMag f := by
  have hmask : (f.b2 ||| 0x80) &&& 0x7F = f.b2 &&& 0x7F := by
    rw [BitVec.and_or_distrib_right]
    exact BitVec.or_zero
  rw [tempMag, tempMag, Frame.withSign, hmask]

theorem toInt_tempTenths_withSign (hsign : f.b2.getLsbD 7 = false) :
    (tempTenths f.withSign).toInt = -(tempTenths f).toInt := by
  have hset : f.withSign.b2.getLsbD 7 = true := by simp [Frame.withSign]
  rw [toInt_tempTenths, toInt_tempTenths, tempMag_withSign, hset, hsign]
  simp

/-! ### VALIDATE, case by case (R155, R156) -/

theorem publishFrame_rdStatus (s : State) :
    (publishFrame s).rdStatus = if checksumOk s.frame then .valid else .checksumMismatch := by
  rw [publishFrame, apply_ite State.rdStatus]
  rfl

theorem exec_validate_of_validating (hf : s.fault = none) (hp : s.phase = .validating) :
    exec .validate s = .next ((publishFrame s).setPhase .idle) :=
  execValidate_next.2 ⟨hf, hp, rfl⟩

theorem exec_validate_of_ok (hf : s.fault = none) (hp : s.phase = .validating) (h : checksumOk s.frame = true) :
    exec .validate s = .next ((s.publish (humTenths s.frame) (tempTenths s.frame)).setPhase .idle) := by
  rw [exec_validate_of_validating hf hp, publishFrame_of_ok h]

theorem exec_validate_of_bad (hf : s.fault = none) (hp : s.phase = .validating) (h : checksumOk s.frame = false) :
    exec .validate s = .next ((s.setStatus .checksumMismatch).setPhase .idle) := by
  rw [exec_validate_of_validating hf hp, publishFrame_of_bad h]

/-! ### The statements on the validator -/

/-- Settles O31: the checksum decides what is published, and a next state is answered only while validating. -/
theorem validateFollowsItsRule : Obligations.ValidateFollowsItsRule := fun _ hf =>
  ⟨fun hp hsum => exec_validate_of_ok hf hp (checksumOk_iff.2 hsum),
    fun hp hsum => exec_validate_of_bad hf hp (Bool.eq_false_iff.2 fun hok => hsum (checksumOk_iff.1 hok)),
    fun hp _ h =>
      have ⟨_, hvalidating, _⟩ := execValidate_next.1 h
      hp hvalidating⟩

/-- Settles O32: the checksum over naturals is the sum of bytes. -/
theorem onlyTheSumByteIsValid : Obligations.OnlyTheSumByteIsValid := by
  intro s p0 p1 p2 p3 b hf hp hframe
  refine ⟨_, exec_validate_of_validating hf hp, ?_⟩
  rw [State.setPhase_rdStatus, publishFrame_rdStatus, hframe]
  simp only [checksumOk_iff_eq_add]

/-- Settles O33: the first byte stands above the second. -/
theorem humidityValue : Obligations.HumidityValue := toNat_humTenths

/-- Settles O34: bit 7 of byte 2 is its weight of 128, and the magnitude has 15 bits. -/
theorem temperatureValue : Obligations.TemperatureValue := by
  intro f
  have hlt := tempMag_lt f
  have hmag := toNat_tempMag f
  simp only [toInt_tempTenths, signBit_iff]
  split <;> omega

/-- Settles O35: the frame with its sign bit set passes the checksum too, so both readings are published whole. -/
theorem signBitNegatesTheTemperature : Obligations.SignBitNegatesTheTemperature := by
  rintro s s' _ hf hp rfl hsign h hvalid
  obtain ⟨-, -, rfl⟩ := execValidate_next.1 h
  have hok : checksumOk s.frame = true := by simpa [publishFrame_rdStatus] using hvalid
  refine ⟨_, exec_validate_of_ok (s := { s with frame := s.frame.withSign }) hf hp (checksumOk_withSign hsign hok),
    rfl, ?_, ?_⟩
  · rw [publishFrame_of_ok hok]
    exact toInt_tempTenths_withSign hsign
  · rw [publishFrame_of_ok hok]
    exact humTenths_withSign s.frame

/-- Settles O36: the checksum of the common frame decides both states alike. -/
theorem validationReadsOnlyTheFrame : Obligations.ValidationReadsOnlyTheFrame := by
  intro s t s' t' hframe hs ht
  obtain ⟨-, -, rfl⟩ := execValidate_next.1 hs
  obtain ⟨-, -, rfl⟩ := execValidate_next.1 ht
  cases hok : checksumOk s.frame with
  | true => simp [publishFrame_of_ok hok, publishFrame_of_ok (hframe ▸ hok), hframe]
  | false => simp [publishFrame_of_bad hok, publishFrame_of_bad (hframe ▸ hok)]

/-! ### The statements on the read commands (R160 to R162) -/

/-- Settles O37: W0 is the humidity above the temperature, and W1 the code of the status. -/
theorem readFollowsItsRule : Obligations.ReadFollowsItsRule := by
  intro s hf
  have hw0 : replyW0 s = BitVec.ofNat 32 (65536 * s.rdHum.toNat + s.rdTemp.toNat) := by
    rw [← toNat_replyW0, BitVec.ofNat_toNat, BitVec.setWidth_eq]
  refine execRead_next.2 ⟨hf, ?_⟩
  rw [State.answer, hw0, replyW1, replyW2]
  cases s.rdStatus <;> rfl

/-- Settles O38: D0 is the call counter. -/
theorem readDiagFollowsItsRule : Obligations.ReadDiagFollowsItsRule := fun _ hf => execReadDiag_next.2 ⟨hf, rfl⟩

end Sys2Proof.Machine

namespace Sys2Proof.Machine

open Sys2Proof.Safety

variable {i : Instr} {s : State}

/-! ### A command that is not admitted (R189, R208) -/

/-- A second INIT faults (R180). -/
theorem exec_init_of_running (ok : Bool) (hf : s.fault = none) (hl : s.life = .running) :
    exec (.init ok) s = .next (s.recordFault (.doubleInit 0x01)) :=
  execInit_next.2 ⟨hf, .inl ⟨hl, rfl⟩⟩

/-- The commands that need setup to have succeeded (R189). -/
def cycleCommands : List Instr := [.cycleReset, .irqDisarm, .irqArm, .asmStart]

theorem mem_cycleCommands : i ∈ cycleCommands ↔ i = .cycleReset ∨ i = .irqDisarm ∨ i = .irqArm ∨ i = .asmStart := by
  simp [cycleCommands]

theorem opcode_ne_init_of_mem_cycleCommands (hi : i ∈ cycleCommands) : i.opcode ≠ .init := by
  obtain rfl | rfl | rfl | rfl := mem_cycleCommands.1 hi <;> decide

/-- Setup is checked before the phase: in any phase the record is NotRunning (R208). -/
theorem exec_of_not_running (hi : i ∈ cycleCommands) (hf : s.fault = none) (hl : s.life ≠ .running) :
    exec i s = .next (s.recordFault (.notRunning (codeOf i))) := by
  obtain rfl | rfl | rfl | rfl := mem_cycleCommands.1 hi
  · exact execCycleReset_next.2 ⟨hf, .inr (.inr ⟨hl, rfl⟩)⟩
  · exact execIrqDisarm_next.2 ⟨hf, .inr ⟨hl, rfl⟩⟩
  · exact execIrqArm_next.2 ⟨hf, .inr ⟨hl, rfl⟩⟩
  · exact execAsmStart_next.2 ⟨hf, .inr (.inr ⟨hl, rfl⟩)⟩

/-- CYCLE_RESET and ASM_START fault while a cycle runs (R121, R184). -/
theorem exec_of_overlap (hi : i = .cycleReset ∨ i = .asmStart) (hf : s.fault = none) (hl : s.life = .running)
    (hp : s.phase ≠ .idle) : exec i s = .next (s.recordFault (.cycleOverlap (codeOf i) s.phase s.bitIndex)) := by
  obtain rfl | rfl := hi
  · exact execCycleReset_next.2 ⟨hf, .inr (.inl ⟨hl, hp, rfl⟩)⟩
  · exact execAsmStart_next.2 ⟨hf, .inr (.inl ⟨hl, hp, rfl⟩)⟩

/-- The rows of the admission table, read where they say no (R189). -/
theorem not_admitted_cases (h : admitted i s = false) :
    ((∃ ok, i = .init ok) ∧ s.life = .running) ∨ (i ∈ cycleCommands ∧ s.life ≠ .running) ∨
    ((i = .cycleReset ∨ i = .asmStart) ∧ s.life = .running ∧ s.phase ≠ .idle) := by
  cases i with
  | init ok => exact .inl ⟨⟨ok, rfl⟩, by simpa [admitted] using h⟩
  | irqDisarm | irqArm => exact .inr (.inl ⟨by simp [cycleCommands], by simpa [admitted] using h⟩)
  | cycleReset | asmStart =>
    by_cases hl : s.life = .running
    · exact .inr (.inr ⟨by simp, hl, by simpa [admitted, hl] using h⟩)
    · exact .inr (.inl ⟨by simp [cycleCommands], hl⟩)
  | read | readDiag | edgeFall | edgeRise | tick | asmRecv | asmTimeout | validate => simp [admitted] at h

/-- Settles O49, by the three kinds of row that do not admit a command. -/
theorem unadmittedCommandsFault : Obligations.UnadmittedCommandsFault := by
  intro i s hf hadm
  obtain ⟨⟨ok, rfl⟩, hl⟩ | ⟨hi, hl⟩ | ⟨hi, hl, hp⟩ := not_admitted_cases hadm
  · exact exec_init_of_running ok hf hl
  · rw [exec_of_not_running hi hf hl, if_neg (opcode_ne_init_of_mem_cycleCommands hi), if_pos hl]
    rfl
  · have hne : i.opcode ≠ .init := by obtain rfl | rfl := hi <;> decide
    rw [exec_of_overlap hi hf hl hp, if_neg hne, if_neg (not_not.2 hl)]
    rfl

/-- Settles O57: a block whose setup failed is disarmed, which R43 says, and not running. -/
theorem failedSetupIsInert : Obligations.FailedSetupIsInert := by
  intro s hinv hf hfailed
  have hl : s.life ≠ .running := by simp [hfailed]
  obtain ⟨-, -, -, -, -, -, hnot⟩ := hinv
  obtain ⟨-, ha⟩ := hnot hl
  exact ⟨fun _ => exec_edge_of_disarmed hf ha, fun _ hi => exec_of_not_running hi hf hl⟩

/-! ### The control commands (R180 to R188) -/

/-- Settles O43: a command that records no fault had its own effect, which its checks read as before and which
repeats to itself. -/
theorem repeatedCommandsAreIdempotent : Obligations.RepeatedCommandsAreIdempotent := by
  intro i s s' hi h hf
  simp only [List.mem_cons, List.not_mem_nil, or_false] at hi
  obtain rfl | rfl | rfl := hi
  · obtain ⟨-, ⟨hl, hp, rfl⟩ | ⟨-, -, rfl⟩ | ⟨-, rfl⟩⟩ := execCycleReset_next.1 h
    · exact execCycleReset_next.2 ⟨hf, .inl ⟨hl, hp, rfl⟩⟩
    · simp at hf
    · simp at hf
  · obtain ⟨-, ⟨hl, rfl⟩ | ⟨-, rfl⟩⟩ := execIrqDisarm_next.1 h
    · exact execIrqDisarm_next.2 ⟨hf, .inl ⟨hl, rfl⟩⟩
    · simp at hf
  · obtain ⟨-, ⟨hl, rfl⟩ | ⟨-, rfl⟩⟩ := execIrqArm_next.1 h
    · exact execIrqArm_next.2 ⟨hf, .inl ⟨hl, rfl⟩⟩
    · simp at hf

/-- Settles O40, by the three cases of INIT. -/
theorem initFollowsItsRule : Obligations.InitFollowsItsRule := fun _ ok hf =>
  ⟨exec_init_of_running ok hf,
    fun hl hok => execInit_next.2 ⟨hf, .inr (.inl ⟨hl, hok, rfl⟩)⟩,
    fun hl hok => execInit_next.2 ⟨hf, .inr (.inr ⟨hl, hok, rfl⟩)⟩⟩

/-- Settles O41: the checks of CYCLE_RESET come in the order of the cases. -/
theorem cycleResetFollowsItsRule : Obligations.CycleResetFollowsItsRule := fun _ hf =>
  ⟨exec_of_not_running (by simp [cycleCommands]) hf,
    exec_of_overlap (.inl rfl) hf,
    fun hl hp => execCycleReset_next.2 ⟨hf, .inl ⟨hl, hp, rfl⟩⟩⟩

/-- Settles O42: setup is the one check of both commands. -/
theorem armAndDisarmFollowTheirRules : Obligations.ArmAndDisarmFollowTheirRules := fun _ hf =>
  ⟨fun hl =>
      ⟨exec_of_not_running (by simp [cycleCommands]) hf hl, exec_of_not_running (by simp [cycleCommands]) hf hl⟩,
    fun hl => ⟨execIrqDisarm_next.2 ⟨hf, .inl ⟨hl, rfl⟩⟩, execIrqArm_next.2 ⟨hf, .inl ⟨hl, rfl⟩⟩⟩⟩

end Sys2Proof.Machine

namespace Sys2Proof

/-! ### What a reserved verdict says about the bytes (R76) -/

/-- A byte that matches no row is outside R76's list. -/
theorem notMem_definedCodes_of_opcodeOf {c : Byte} (h : opcodeOf c = none) : c ∉ definedCodes := by
  intro hc
  obtain ⟨o, rfl⟩ := exists_opcodeByte_eq hc
  simp at h

theorem decodeInit_reserved {bs : List Byte} {b : Byte} (h : decodeInit bs = .reserved b) :
    ∃ rest, bs = b :: rest ∧ b ≠ 0x00 ∧ b ≠ 0x01 := by
  cases bs with
  | nil => cases h
  | cons c rest =>
    simp only [decodeInit] at h
    split_ifs at h with h1 h0
    cases h
    exact ⟨rest, rfl, h0, h1⟩

theorem decodeEdge_ne_reserved (mk : Micros → Instr) (bs : List Byte) (b : Byte) :
    decodeEdge mk bs ≠ .reserved b := by
  rw [decodeEdge]
  split_ifs <;> simp

/-- Behind a defined code only INIT's operand byte can be reserved. -/
theorem decodeOperand_reserved {o : Opcode} {bs : List Byte} {b : Byte} (h : decodeOperand o bs = .reserved b) :
    o = .init ∧ ∃ rest, bs = b :: rest ∧ b ≠ 0x00 ∧ b ≠ 0x01 := by
  cases o with
  | init => exact ⟨rfl, decodeInit_reserved h⟩
  | edgeFall | edgeRise => exact absurd h (decodeEdge_ne_reserved _ bs b)
  | cycleReset | irqDisarm | irqArm | asmStart | read | readDiag | tick | asmRecv | asmTimeout | validate => cases h

/-- A reserved byte is the stream's first byte, outside R76's list, or it is INIT's operand byte. -/
theorem decode_reserved {bs : List Byte} {b : Byte} (h : decode bs = .reserved b) :
    ∃ rest, (bs = b :: rest ∧ b ∉ definedCodes) ∨ (bs = 0x01 :: b :: rest ∧ b ≠ 0x00 ∧ b ≠ 0x01) := by
  cases bs with
  | nil => cases h
  | cons c bs =>
    cases ho : opcodeOf c with
    | none =>
      cases (decode_of_opcodeOf_none ho bs).symm.trans h
      exact ⟨bs, .inl ⟨rfl, notMem_definedCodes_of_opcodeOf ho⟩⟩
    | some o =>
      obtain rfl := opcodeByte_of_opcodeOf c o ho
      obtain ⟨rfl, rest, rfl, h0, h1⟩ := decodeOperand_reserved (decode_opcodeByte o bs ▸ h)
      exact ⟨rest, .inr ⟨rfl, h0, h1⟩⟩

end Sys2Proof

namespace Sys2Proof.Machine

open Sys2Proof.Safety

variable {s s' : State}

/-! ### An edge and the worker's state (R209) -/

/-- Settles O17: a delivered edge counts the call, and then a fall writes the channel and a rise the decoder's
fields. -/
theorem edgeKeepsTheWorkersState : Obligations.EdgeKeepsTheWorkersState := by
  intro i s s' hi h
  cases i with
  | edgeFall t =>
    obtain ⟨-, ⟨-, rfl⟩ | ⟨-, -, rfl⟩⟩ := execEdgeFall_next.1 h
    · rfl
    · rw [classifyEdge_frame]; rfl
  | edgeRise t =>
    obtain ⟨-, ⟨-, rfl⟩ | ⟨-, rfl⟩⟩ := execEdgeRise_next.1 h
    · rfl
    · rw [acceptRise_eq]; rfl
  | init | cycleReset | irqDisarm | irqArm | asmStart | read | readDiag | tick | asmRecv | asmTimeout | validate =>
    cases hi

/-! ### What is refused (R76, R104, R203) -/

/-- The clock duty is broken by a delivered, timed falling edge before the recorded rise, and by nothing else. -/
theorem clockDuty_eq_false {i : Instr} (h : clockDuty i s = false) :
    s.armed = true ∧ s.timing = true ∧ ∃ t, i = .edgeFall t ∧ t.toNat < s.lastRise.toNat := by
  cases i with
  | edgeFall t =>
    obtain ⟨harmed, hback⟩ : s.armed = true ∧ clockWentBack t s = true := by simpa [clockDuty] using h
    obtain ⟨htiming, hlt⟩ := clockWentBack_iff.1 hback
    exact ⟨harmed, htiming, t, rfl, hlt⟩
  | init | cycleReset | irqDisarm | irqArm | asmStart | read | readDiag | edgeRise | tick | asmRecv | asmTimeout
  | validate => cases h

/-- An event is refused only outside the clock duty: one that is not enabled stops with a fault, and any other
enabled one goes on. -/
theorem exec_refused {i : Instr} {r : Refusal} (h : exec i s = .refused r) :
    r = .nonMonotonicClock ∧ clockDuty i s = false := by
  have hen : enabled i s = true := by
    by_contra hnot
    obtain ⟨q, hq⟩ := (noStepExactlyWhereNotEnabled i s).2 (by simpa using hnot)
    cases hq.symm.trans h
  obtain ⟨s', hs⟩ | ⟨hduty, hr⟩ := exec_of_enabled hen
  · cases hs.symm.trans h
  · cases hr.symm.trans h
    exact ⟨rfl, hduty⟩

/-- ASM's own steps are internal events (R77). -/
theorem internal_of_asmOwnStep {i : Instr} (h : asmOwnStep s = some i) : i.opcode.eventClass = .internal := by
  unfold asmOwnStep at h
  split_ifs at h <;> cases h <;> rfl

/-- Everything the step can be refused for: the event at the head of the stream, a reserved byte there, or, with no
whole record offered, ASM's own step. -/
theorem step_refused_cases {r : Refusal} (h : step s = .refused r) :
    (∃ i rest, decode s.events = .record i rest ∧ exec i (s.setEvents rest) = .refused r) ∨
    (∃ b, decode s.events = .reserved b ∧ r = .reservedCode b) ∨
    (∃ i, asmOwnStep s = some i ∧ exec i s = .refused r) := by
  have hf : s.fault = none := by
    cases hf : s.fault with
    | none => rfl
    | some q => simp [step, hf] at h
  cases hd : decode s.events with
  | record i rest => exact .inl ⟨i, rest, rfl, (stepRunsTheNextEvent s i rest hf hd).symm.trans h⟩
  | reserved b =>
    cases (step_of_reserved hf hd).symm.trans h
    exact .inr (.inl ⟨b, rfl, rfl⟩)
  | noRecord =>
    cases ho : asmOwnStep s with
    | some i => exact .inr (.inr ⟨i, rfl, (step_of_ownStep hf hd ho).symm.trans h⟩)
    | none => cases (step_of_no_ownStep hf hd ho).symm.trans h

/-- Settles O52: an event is refused only outside the clock duty, which no step of ASM's own can break, and a reserved
verdict of the decoder tells the byte's place and value. -/
theorem refusalsAreTheTwoOfTheSpec : Obligations.RefusalsAreTheTwoOfTheSpec := by
  refine ⟨fun i s r h => ?_, fun s r h => ?_⟩
  · obtain ⟨hr, hduty⟩ := exec_refused h
    exact ⟨hr, clockDuty_eq_false hduty⟩
  · obtain ⟨i, rest, hd, hx⟩ | ⟨b, hd, hr⟩ | ⟨i, ho, hx⟩ := step_refused_cases h
    · obtain ⟨hr, hduty⟩ := exec_refused hx
      obtain ⟨harmed, htiming, t, rfl, hlt⟩ := clockDuty_eq_false hduty
      exact .inl ⟨hr, harmed, htiming, t, rest, hd, hlt⟩
    · obtain ⟨rest, hplace⟩ := decode_reserved hd
      exact .inr ⟨b, rest, hr, hd, hplace⟩
    · obtain ⟨-, -, t, rfl, -⟩ := clockDuty_eq_false (exec_refused hx).2
      cases internal_of_asmOwnStep ho

/-! ### The end of a cycle (R219) -/

theorem shiftIn_phase_ne_idle (b : Bit) (hp : s.phase ≠ .idle) : (s.shiftIn b).phase ≠ .idle :=
  fun h => hp (phaseAfter_eq_idle.1 h).2

/-- Of the events that write the phase, ASM_START makes it RECEIVING or faults, and a bit shifted in leaves it
RECEIVING or makes it VALIDATING. -/
theorem exec_keeps_phase_ne_idle {i : Instr} (hi : i ≠ .validate) (h : exec i s = .next s') (hp : s.phase ≠ .idle) :
    s'.phase ≠ .idle := by
  obtain ⟨-, -, -, -, -, hphase, -⟩ := fieldsAreWrittenByTheirEvents i s s' h
  cases i with
  | asmStart =>
    obtain ⟨-, ⟨-, hidle, -⟩ | ⟨-, -, rfl⟩ | ⟨-, rfl⟩⟩ := execAsmStart_next.1 h
    · exact absurd hidle hp
    · exact hp
    · exact hp
  | asmRecv =>
    obtain ⟨-, -, b, -, -, rfl⟩ := execAsmRecv_next.1 h
    exact shiftIn_phase_ne_idle (s := s.chanPop) b hp
  | asmTimeout =>
    obtain ⟨-, -, -, -, rfl⟩ := execAsmTimeout_next.1 h
    exact shiftIn_phase_ne_idle (s := s.emitDiag _) 0 hp
  | validate => exact absurd rfl hi
  | init | cycleReset | irqDisarm | irqArm | read | readDiag | edgeFall | edgeRise | tick =>
    rwa [hphase (by simp [Instr.opcode])]

/-- Settles O55: VALIDATE goes on only from VALIDATING, and every other event keeps a cycle that runs. -/
theorem onlyValidateEndsACycle : Obligations.OnlyValidateEndsACycle := by
  intro i s s' h
  constructor
  · rintro ⟨hp, hidle⟩
    by_contra hi
    exact exec_keeps_phase_ne_idle hi h hp hidle
  · rintro rfl
    obtain ⟨-, hp, rfl⟩ := execValidate_next.1 h
    exact ⟨by simp [hp], rfl⟩

end Sys2Proof.Machine

namespace Sys2Proof.Machine

/-! ### Power-on (R230), and what a cycle reset forgets (R231, R234) -/

/-- Settles O1: State.reset is one concrete state. -/
theorem powerOnResetValues : Obligations.PowerOnResetValues := by
  unfold Obligations.PowerOnResetValues
  decide

/-- The state with the decoder, the channel and the accumulator of another: what the edges, bits and ticks of a cycle
build up. -/
def State.withHistory (s o : State) : State :=
  { s with
    awaitAck := o.awaitAck, timing := o.timing, lastRise := o.lastRise, calls := o.calls, chan := o.chan
    bitIndex := o.bitIndex, frame := o.frame, waitTicks := o.waitTicks }

/-- A cycle reset that is admitted overwrites the whole history, and one after a fault reads only the fault. -/
theorem exec_cycleReset_withHistory {s : State} (o : State) (hl : s.life = .running) (hp : s.phase = .idle) :
    exec .cycleReset (s.withHistory o) = exec .cycleReset s := by
  cases hf : s.fault with
  | some r => rw [exec_of_some hf, exec_of_some (s := s.withHistory o) hf]
  | none =>
    have hrule := (cycleResetFollowsItsRule s hf).2.2 hl hp
    have hrule' := (cycleResetFollowsItsRule (s.withHistory o) hf).2.2 hl hp
    rw [hrule, hrule']
    rfl

/-- Settles O44: the one state is the other with its own history, and a running, idle block's reset forgets that. -/
theorem cycleResetForgetsTheLastCycle : Obligations.CycleResetForgetsTheLastCycle := by
  intro s t _ htp hst hl
  have htl : t.life = .running := by rw [hst] at hl; exact hl
  calc exec .cycleReset s
    _ = exec .cycleReset (t.withHistory s) := congrArg (exec .cycleReset) hst
    _ = exec .cycleReset t := exec_cycleReset_withHistory s htl htp

end Sys2Proof.Machine
